-- ==== Sys2Proof/Word.lean ====
section
/-!
DEFINITION. The widths the spec uses for values: bytes on the link and in the buffers, sixteen-bit host registers,
ten-bit register indices (rules R6, R21, R62).
-/

namespace Sys2Proof

/-- One byte of the link, of a buffer or of an eight-bit register (R6, R62). -/
abbrev Byte := BitVec 8

/-- One host register access, and a timing register (R21, R23). -/
abbrev Word16 := BitVec 16

/-- A host register index (R21, R60). -/
abbrev RegIndex := BitVec 10

end Sys2Proof
end

