-- ==== Sys2Proof/Config.lean ====
section
/-!
DEFINITION. What stays fixed while the machine runs: the constants of rule R5, the one open constant (the depth of
the RX FIFO), and the free values. A constant without a body is a value the spec leaves open: nothing can be proved
about which value it is.
-/

namespace Sys2Proof

/-- One move of one of the four agents (R13). The script in the state lists them; log 1, log 9 and log 4 say why
`frame`, `tick` and `clk` stand beside the moves of R157, R158 and R159. -/
inductive Move where
  /-- The ENGINE takes its step (R159). -/
  | engine
  /-- The ENGINE takes its steps over one whole frame, with no other agent between them (log 9). -/
  | frame
  /-- TIME ends the wait in progress, in the untimed form (R158). -/
  | expire
  /-- One tick passes: the wait timer counts down (R151, R272, R138 f). -/
  | tick
  /-- One clock edge of the timed form (R151, R155, R156; log 4). -/
  | clk
  /-- The LINK delivers a byte (R157; port rx_push with rx_data, R34). -/
  | deliver (b : Byte)
  /-- The HOST writes a register (R248, R249; ports h_we, h_idx, h_wdata). -/
  | hostWrite (idx : RegIndex) (data : Word16)
  /-- The HOST reads a register (R251; ports h_re, h_idx, h_rdata). -/
  | hostRead (idx : RegIndex)
  /-- `rst` is 1 at a clock edge (R290). -/
  | rst
deriving DecidableEq, Repr, Inhabited

namespace Config

/-- `PROBE_MAX`: the greatest number of probe acknowledgments in one flood (R5, R211). -/
def probeMax : Nat := 32

/-- `MAX_PAYLOAD`: the greatest payload length (R5, R91, C2). -/
def maxPayload : Nat := 253

/-- `RX_FIFO_DEPTH` less one, or none for an unbounded queue (R5, R31, D18, U13): open, at least 1, so it has no body
(log 6). -/
opaque rxFifoDepthPred : Option Nat

/-- Whether a queue of `n` bytes has room for one more (R157). -/
def hasRoom (n : Nat) : Bool :=
  match rxFifoDepthPred with
  | none => true
  | some d => n < d + 1

/-- Which agent moves, and how, when the state's script fixes no move: a free value applied to the step counter
(R13, R67, R157, U15, U22; log 1). -/
opaque freeMove : Nat → Move

/-- What a buffer byte holds that the spec leaves unspecified (R27, R28, U5, U6): a free value applied to the state's
epoch and the byte's register index (log 8). -/
opaque unspecByte : Nat → Nat → Byte

end Config

end Sys2Proof
end

