-- ==== Sys2Proof/Machine/Codec.lean ====
section
/-!
DEFINITION. The Frame Codec: four pure functions (R10, R130, R132, R134, R136). None reads or writes state.
-/

namespace Sys2Proof.Machine

/-- `CSUM(s)`: 0xFF exclusive-ored with every byte (R130). -/
def csum (s : List Byte) : Byte := s.foldl (fun acc b => acc ^^^ b) 0xFF#8

/-- The length byte of a payload: `L = n + 2` (R91, R101). -/
def lengthOf (payload : List Byte) : Byte := BitVec.ofNat 8 (payload.length + 2)

/-- `ENCODE(P)`: start marker, length byte, direction 0x00, payload, checksum; not defined for more than 253 payload
bytes (R132, U10). -/
def encodeFrame (payload : List Byte) : Option (List Byte) :=
  if payload.length ≤ Config.maxPayload then
    some ([0x01#8, lengthOf payload, 0x00#8] ++ payload ++ [csum (lengthOf payload :: 0x00#8 :: payload)])
  else none

/-- `VERIFY(L, body)`: the final accumulator and the verdict (R134). -/
def verify (len : Byte) (body : List Byte) : Byte × Bool :=
  (csum body ^^^ len, csum body ^^^ len == 0x00#8)

/-- The payload of a body: without its first byte (direction) and its last (checksum); empty below two bytes
(R28, R136). -/
def payloadOf (body : List Byte) : List Byte := (body.drop 1).dropLast

/-- `DECODE(L, body)`: the verdict, the direction byte if there is one, and the payload (R136). -/
def decodeBody (len : Byte) (body : List Byte) : Bool × Option Byte × List Byte :=
  ((verify len body).2, body.head?, payloadOf body)

end Sys2Proof.Machine
end

