-- ==== Sys2Proof/Machine/State.lean ====
section
/-!
DEFINITION. The state of the LINK ENGINE, every piece the spec names (R20 to R35), its reset value, and the reasons a
step can stop. Plain data throughout.
-/

namespace Sys2Proof.Machine

/-- The phases `PH` (R24), in the order of their values 0 to 19. The reserved values 20 to 31 cannot be written down
(U8). -/
inductive Phase where
  | idle | preChk | preDrain | tx | hsWait | probeTx | probeGap | canAck | canDrain1 | canGap
  | canDrain2 | othDrain | nextAttempt | post | rfSync | rfLen | rfBody | rfCheck | rfAck | finish
deriving DecidableEq, Repr

/-- The flags of STATUS (R26), bit 0 first; bit 15 is reserved. -/
inductive Flag where
  | busy | done | txc | rxf | cse | trn | sht | tmo | lst | ill | ovr | cans | nrs | oth | fov
deriving DecidableEq, Repr

/-- Why the machine stops with a fault: there is no reason. The engine never traps, and a model has no fault outcome for
it (R16, R266), so this type has no constructor and no step can answer a fault. -/
inductive Fault where
deriving DecidableEq, Repr

/-- Why an instruction or a step is refused. The spec's own refusals at the host boundary, an illegal code and a too long
payload, are not among these: they are next states with ILL set (R16, R246, R247). -/
inductive Refusal where
  /-- No meaning written yet for the instruction of that mnemonic. Raised by exec's arms only. Safe. -/
  | notModelled (mnemonic : String)
  /-- SEND or SENDR with a payload byte below TX_LEN not written since reset: refused by the model, as R27 and U6
  demand (log 7). Raised by execSend and execSendr. Safe. -/
  | txBufUnwritten
  /-- exec was handed a wire byte or frame in a phase that does not take it (R97): the bytes are not that instruction
  there (log 14). Raised by the meanings of the wire rows; step never causes it. Safe. -/
  | outOfContext (mnemonic : String)
  /-- Phase TX with TX_LEN above 253: ENCODE is not defined there, and U10 gives it as `refuse` (R132; log 13). Raised by
  the TX step; never in a state that meets the invariant. Safe. -/
  | encodeUndefined
  /-- Phase TX with TXI above TX_LEN + 3: no step, stuck (R30, R138 d; log 13). Raised by the TX step and by FRAME.REQ;
  never in a state that meets the invariant. Safe. -/
  | stuckTxIndex
  /-- Phase PROBE_GAP expiring with PRB above 32: no step, stuck (R30, R211; log 13). Raised by the TIME step; never in a
  state that meets the invariant. Safe. -/
  | stuckProbeCount
  /-- Phase RF_BODY taking a byte with RX_CNT not below RX_LEN: no step, stuck (R177; log 13). Raised by the engine's step;
  never in a state that meets the invariant. Safe. -/
  | stuckBodyCount
deriving DecidableEq, Repr

/-- The state (R20). Fields of at most one byte or word are registers; `mem` holds the cells of TX_BUF and RX_BUF that
have been written since reset, keyed by register index (R60). -/
structure State where
  /-- STATUS (R26). -/
  status : Word16
  /-- CFG (R22). -/
  cfg : Byte
  /-- TIMEOUT (R23). -/
  timeout : Word16
  /-- T_HS (R23). -/
  tHs : Word16
  /-- T_BYTE (R23). -/
  tByte : Word16
  /-- T_PGAP (R23). -/
  tPgap : Word16
  /-- T_DGAP (R23). -/
  tDgap : Word16
  /-- BRB (R23). -/
  brb : Byte
  /-- TX_LEN (R27). -/
  txLen : Byte
  /-- RX_LEN (R28). -/
  rxLen : Byte
  /-- RX_CNT (R28). -/
  rxCnt : Byte
  /-- ATT (R29). -/
  att : Byte
  /-- DIAG_DESYNC (R32). -/
  diagDesync : Byte
  /-- DIAG_RETRY (R32). -/
  diagRetry : Byte
  /-- DIAG_CSUM (R32). -/
  diagCsum : Byte
  /-- DIAG_CAN (R32). -/
  diagCan : Byte
  /-- DIAG_OTHER (R32). -/
  diagOther : Byte
  /-- TX_BUF and RX_BUF (R27, R28, R60): the bytes written since reset, by register index. -/
  mem : List Host.Cell
  /-- PH (R24). -/
  ph : Phase
  /-- OP (R30). -/
  op : BitVec 2
  /-- TXI (R30). -/
  txi : BitVec 9
  /-- PRB (R30). -/
  prb : BitVec 6
  /-- BRC (R30). -/
  brc : Byte
  /-- ACC (R30). -/
  acc : Byte
  /-- TMR (R30, R272). -/
  tmr : Word16
  /-- RXQ (R31), head first. -/
  rxq : List Byte
  /-- TXLOG (R33), oldest first. -/
  txLog : List Byte
  /-- What the port h_rdata last answered (R34). The model's own (log 2). -/
  hRdata : Word16
  /-- The agents' moves already fixed, next first. The model's own (log 1, log 2). -/
  script : List Move
  /-- Steps taken, the argument of the free move. The model's own (log 2). -/
  now : Nat
  /-- Steps taken other than host reads, the argument of the free bytes. The model's own (log 2, log 8). -/
  epoch : Nat
deriving DecidableEq, Repr

/-- The state after reset (R35, R290). -/
def State.reset : State where
  status := 0x0000#16
  cfg := 0x34#8
  timeout := 5000#16
  tHs := 500#16
  tByte := 100#16
  tPgap := 10#16
  tDgap := 100#16
  brb := 1#8
  txLen := 0#8
  rxLen := 0#8
  rxCnt := 0#8
  att := 0#8
  diagDesync := 0#8
  diagRetry := 0#8
  diagCsum := 0#8
  diagCan := 0#8
  diagOther := 0#8
  mem := []
  ph := .idle
  op := 0#2
  txi := 0#9
  prb := 0#6
  brc := 0#8
  acc := 0#8
  tmr := 0#16
  rxq := []
  txLog := []
  hRdata := 0#16
  script := []
  now := 0
  epoch := 0

/-- The outcome of a step or a meaning. -/
abbrev Result := Host.Outcome State Fault Refusal

end Sys2Proof.Machine
end

