-- ==== Sys2Proof/Machine/Flags.lean ====
section
/-!
DEFINITION. Flags and counters: the bits of STATUS (R26), the fields of CFG (R22), the clearing of the flags when a
command is accepted (R245), and the saturating diagnostic counters (R32).
-/

namespace Sys2Proof.Machine

/-- A flag's bit number in STATUS (R26). -/
def Flag.bit : Flag → Nat
  | .busy => 0
  | .done => 1
  | .txc => 2
  | .rxf => 3
  | .cse => 4
  | .trn => 5
  | .sht => 6
  | .tmo => 7
  | .lst => 8
  | .ill => 9
  | .ovr => 10
  | .cans => 11
  | .nrs => 12
  | .oth => 13
  | .fov => 14

/-- STATUS with only that flag set. -/
def Flag.mask (f : Flag) : Word16 := BitVec.ofNat 16 (2 ^ f.bit)

/-- The value of a flag (R26). -/
def State.flag (s : State) (f : Flag) : Bool := s.status.getLsbD f.bit

/-- `STATUS.f <- 1`. -/
def State.setFlag (s : State) (f : Flag) : State := { s with status := s.status ||| f.mask }

/-- `STATUS.f <- 1` when the condition holds, else no change. -/
def State.setFlagIf (s : State) (f : Flag) (c : Bool) : State := { s with status := if c then s.status ||| f.mask else s.status }

/-- `STATUS.f <- 0`. -/
def State.clearFlag (s : State) (f : Flag) : State := { s with status := s.status &&& ~~~f.mask }

/-- STATUS when a command is accepted: bits 14:1 cleared, BUSY set (R245). Bit 15 is reserved and not touched
(log 23). -/
def acceptedStatus (w : Word16) : Word16 := (w &&& 0x8000#16) ||| 0x0001#16

/-- What a host read of STATUS gives: bit 15 is reserved and reads 0 (R26). -/
def statusRead (w : Word16) : Word16 := w &&& 0x7FFF#16

/-- The port `done`: equal to STATUS.DONE (R34, R270). -/
def State.donePort (s : State) : Bool := s.flag .done

/-- The port `tx_valid` between two steps: no byte is waiting to be handed over, because `TxWrite` completes within its
step (R34, R35, R154, D31; log 15). -/
def State.txValidPort (_ : State) : Bool := false

/-- CFG.RETRY, bits 3:0 (R22). -/
def State.retry (s : State) : Nat := s.cfg.toNat % 16

/-- CFG.CAN_EN, bit 4 (R22). -/
def State.canEn (s : State) : Bool := s.cfg.getLsbD 4

/-- CFG.AOT, bit 5 (R22). -/
def State.ackOnTrunc (s : State) : Bool := s.cfg.getLsbD 5

/-- CFG after a host write of `w`: bits 5:4 are stored, bits 7:6 dropped, bits 3:0 stored unless they are all zero
(R22, U18). -/
def cfgWritten (old w : Byte) : Byte :=
  (w &&& 0x30#8) ||| (if w &&& 0x0F#8 = 0x00#8 then old &&& 0x0F#8 else w &&& 0x0F#8)

/-- What a host read of CFG gives: bits 7:6 are reserved and read 0 (R22). -/
def cfgRead (w : Byte) : Byte := w &&& 0x3F#8

/-- `sat(v + 1)`: one more, staying at 255 (R32, R138 e). -/
def satInc (v : Byte) : Byte := if v = 0xFF#8 then 0xFF#8 else v + 1#8

/-- DIAG_DESYNC counts one more discarded byte (R32, R174). -/
def State.countDesync (s : State) : State := { s with diagDesync := satInc s.diagDesync }

/-- DIAG_RETRY counts one more expired handshake wait (R32, R205). -/
def State.countRetry (s : State) : State := { s with diagRetry := satInc s.diagRetry }

/-- DIAG_CSUM counts one more checksum failure, when there is one (R32, R179). -/
def State.countCsumIf (s : State) (c : Bool) : State :=
  { s with diagCsum := if c then satInc s.diagCsum else s.diagCsum }

/-- DIAG_CAN counts one more cancel byte (R32, R207). -/
def State.countCan (s : State) : State := { s with diagCan := satInc s.diagCan }

/-- DIAG_OTHER counts one more unexpected reply (R32, R208). -/
def State.countOther (s : State) : State := { s with diagOther := satInc s.diagOther }

/-- A write to DIAG_CLR while idle: all five counters 0 (R32, R249). -/
def State.clearDiag (s : State) : State :=
  { s with diagDesync := 0#8, diagRetry := 0#8, diagCsum := 0#8, diagCan := 0#8, diagOther := 0#8 }

end Sys2Proof.Machine
end

