-- ==== Sys2Proof/Machine/Ops.lean ====
section
/-!
DEFINITION. The named operations over memory, the link and the phase register: the buffer cells (R60), the link
primitives (R150 to R156), moving to a phase with its wait started afresh (R151, R152, R155, R156, R272), accepting a
command (R245), the host's write while busy (R248) and reset (R290).
The spec's engine takes no exception (R266), so there is no exception entry and no return from one.
-/

namespace Sys2Proof.Machine

/-- The register index of TX_BUF[0] (R21, R60). -/
def txBufBase : Nat := 0x100

/-- The number of bytes of TX_BUF (R27). -/
def txBufSize : Nat := 253

/-- The register index of RX_BUF[0] (R21, R60). -/
def rxBufBase : Nat := 0x200

/-- The number of bytes of RX_BUF (R28). -/
def rxBufSize : Nat := 255

/-- Whether a register index is a byte of TX_BUF or of RX_BUF (R21, R60). -/
def Memory.mapped (a : Nat) : Bool :=
  decide (txBufBase ≤ a ∧ a < txBufBase + txBufSize ∨ rxBufBase ≤ a ∧ a < rxBufBase + rxBufSize)

/-- What a listed cell holds; an unlisted one has no value (R27, R28, R35; log 8). -/
def Memory.read : List Host.Cell → Nat → Option Byte
  | [], _ => none
  | c :: rest, a => if c.1 = a then some c.2 else Memory.read rest a

/-- Write one cell, keeping the list in rising order of address with no repeats. -/
def Memory.write : List Host.Cell → Nat → Byte → List Host.Cell
  | [], a, b => [(a, b)]
  | c :: rest, a, b =>
    if a < c.1 then (a, b) :: c :: rest
    else if c.1 = a then (a, b) :: rest
    else c :: Memory.write rest a b

/-- The canonical form: addresses strictly rising, and only addresses of the two buffers. (No entry can equal what an
unlisted address reads as, since that is no value.) -/
abbrev Memory.wf (m : List Host.Cell) : Prop :=
  m.Pairwise (fun c d => c.1 < d.1) ∧ ∀ c ∈ m, Memory.mapped c.1 = true

/-- A buffer byte: what was written there since reset, or else a free value (log 8). -/
def State.bufByte (s : State) (a : Nat) : Byte := (Memory.read s.mem a).getD (Config.unspecByte s.epoch a)

/-- Write a buffer byte. -/
def State.writeBuf (s : State) (a : Nat) (b : Byte) : State := { s with mem := Memory.write s.mem a b }

/-- `RxAvail()` (R150). -/
def State.rxAvail (s : State) : Bool := !s.rxq.isEmpty

/-- `RxWait(T)` and `ByteWait()` while a byte is queued: the head, and the state without it (R151, R152). -/
def State.rxTake (s : State) : Option (Byte × State) :=
  match s.rxq with
  | [] => none
  | b :: q => some (b, { s with rxq := q })

/-- `RxDrain()` (R153). -/
def State.rxDrain (s : State) : State := { s with rxq := [] }

/-- `TxWrite(b)` (R154, R33; log 15). -/
def State.txWrite (s : State) (b : Byte) : State := { s with txLog := s.txLog ++ [b] }

/-- The acknowledgment byte 0x06 (R96). -/
def ackByte : Byte := 0x06#8

/-- The count with which the wait of a phase starts; a phase that does not wait leaves the timer alone (R272). -/
def State.waitTicks (s : State) : Phase → Word16
  | .hsWait => s.tHs
  | .probeGap => s.tPgap
  | .canGap => s.tDgap
  | .rfSync => s.timeout
  | .rfLen => s.tByte
  | .rfBody => s.tByte
  | _ => s.tmr

/-- The expiry count with which a phase's `ByteWait()` starts (R152). -/
def State.waitExpiries (s : State) : Phase → Byte
  | .rfLen => 0#8
  | .rfBody => 0#8
  | _ => s.brc

/-- `PH <- p`, starting the wait of that phase afresh (R8, R151, R152, R155, R156, R172; log 4). -/
def State.enter (s : State) (p : Phase) : State :=
  { s with ph := p, tmr := s.waitTicks p, brc := s.waitExpiries p }

/-- The step that accepts a command with code bits 1:0 equal to `c` (R245). -/
def State.accept (s : State) (c : BitVec 2) : State :=
  State.enter
    { s with status := acceptedStatus s.status, op := c, att := 0#8, rxLen := 0#8, rxCnt := 0#8 }
    (if c.getLsbD 1 then .preChk else .rfSync)

/-- A host write while BUSY is 1: ignored, OVR set (R248). -/
def State.overrun (s : State) : State := s.setFlag .ovr

/-- Reset (R290, R291, R35): every piece of the spec's state takes its reset value, whatever was going on; what other
agents will do next, and the model's counters, are not the block's and stay (log 2, log 22). -/
def State.resetBlock (s : State) : State :=
  { State.reset with script := s.script, now := s.now, epoch := s.epoch }

end Sys2Proof.Machine
end

