-- ==== Sys2Proof/Machine/Operands.lean ====
section
/-!
DEFINITION. Where the operands of the commands and frames come from: the payload in TX_BUF (R27), the body in RX_BUF
and its views (R28), and what `readFrame` returns (R183).
-/

namespace Sys2Proof.Machine

/-- The payload of the command to send, `P = TX_BUF[0 .. TX_LEN-1]` (R27). -/
def State.txPayload (s : State) : List Byte :=
  (List.range s.txLen.toNat).map fun i => s.bufByte (txBufBase + i)

/-- Every payload byte below TX_LEN has been written since reset (R27, U6). -/
def State.payloadWritten (s : State) : Bool :=
  (List.range s.txLen.toNat).all fun i => (Memory.read s.mem (txBufBase + i)).isSome

/-- The frame of the command to send, `ENCODE(P)`; none when TX_LEN is above 253 (R132, R203). -/
def State.txFrame (s : State) : Option (List Byte) := encodeFrame s.txPayload

/-- The body collected so far, `RX_BUF[0 .. RX_CNT-1]` (R28). -/
def State.rxBody (s : State) : List Byte :=
  (List.range s.rxCnt.toNat).map fun i => s.bufByte (rxBufBase + i)

/-- The view `RX_DIR`: the first body byte, when there is one (R28). -/
def State.rxDir (s : State) : Option Byte := s.rxBody.head?

/-- The view `PAY`: the body without its first and last byte (R28). -/
def State.pay (s : State) : List Byte := payloadOf s.rxBody

/-- The view `PAY_LEN`: RX_CNT less 2, floored at 0 (R28, R138 c). -/
def State.payLen (s : State) : Nat := s.rxCnt.toNat - 2

/-- What `readFrame` returns: none for "no frame", else the payload, trusted or not (R183). -/
def State.readResult (s : State) : Option (List Byte) := if s.flag .rxf then some s.pay else none

/-- A frame that can be trusted: RXF, and none of CSE, TRN, SHT (R26). -/
def State.goodFrame (s : State) : Bool := s.flag .rxf && !s.flag .cse && !s.flag .trn && !s.flag .sht

end Sys2Proof.Machine
end

