-- ==== Sys2Proof/Machine/Commands.lean ====
section
/-!
DEFINITION. The host commands: the rows NOP, RECV, SEND, SENDR and CMD.ILLEGAL, each a write to CMD (R240 to R248).
Every one first meets the test of BUSY (R244, R248).
-/

namespace Sys2Proof.Machine

/-- NOP (R240); ignored with OVR while busy (R248). -/
def execNop (s : State) : Result :=
  if s.flag .busy then .next s.overrun else .next s

/-- RECV (R241, R245); ignored with OVR while busy (R248). -/
def execRecv (s : State) : Result :=
  if s.flag .busy then .next s.overrun else .next (s.accept 1#2)

/-- A SEND or SENDR with code bits `c`, in the order of R244: busy (R248), too long a payload (R247), a payload byte
never written (R27, U6: the model refuses; log 7), accept (R245). -/
def startSend (c : BitVec 2) (s : State) : Result :=
  if s.flag .busy then .next s.overrun
  else if Config.maxPayload < s.txLen.toNat then .next (s.setFlag .ill)
  else if s.payloadWritten then .next (s.accept c)
  else .refused .txBufUnwritten

/-- SEND (R242). -/
def execSend (s : State) : Result := startSend 2#2 s

/-- SENDR (R243). -/
def execSendr (s : State) : Result := startSend 3#2 s

/-- CMD.ILLEGAL: refused with ILL, nothing else changes (R246); ignored with OVR while busy (R248). The code is not looked
at here (log 25). -/
def execCmdIllegal (s : State) : Result :=
  if s.flag .busy then .next s.overrun else .next (s.setFlag .ill)

end Sys2Proof.Machine
end

