-- ==== Sys2Proof/Syntax.lean ====
section
/-!
DEFINITION. The instructions: one constructor per row of spec/opcode_table.json (R111). The rows for bytes carry the
byte where the row does not fix it; the two frame rows carry the length byte and the bytes that follow the direction
byte (payload, then checksum).
-/

namespace Sys2Proof

/-- The thirteen rows of the encoding table (R96, R97, R110, R111). -/
inductive Instr where
  /-- SOF: the byte 0x01 taken in RF_SYNC (R174, first arm). -/
  | sof
  /-- SYNC.SKIP: any other byte taken in RF_SYNC (R174, second arm). -/
  | syncSkip (b : Byte)
  /-- ACK: the byte 0x06 taken in HS_WAIT (R206). -/
  | ack
  /-- NAK: the byte 0x15 taken in HS_WAIT (R208, C8). -/
  | nak
  /-- CAN: the byte 0x18 taken in HS_WAIT (R207; R208 when CFG.CAN_EN is 0). -/
  | can
  /-- HS.OTHER: any other byte taken in HS_WAIT (R208). -/
  | hsOther (b : Byte)
  /-- FRAME.REQ: a whole frame with direction 0x00; `len` is the length byte `L`, `rest` the `L - 1` bytes after the
  direction byte (R90, R132). -/
  | frameReq (len : Byte) (rest : List Byte)
  /-- FRAME.RES: a whole frame with direction 0x01, same operands (R90, R170). -/
  | frameRes (len : Byte) (rest : List Byte)
  /-- NOP: a write of 0x00 to CMD (R240). -/
  | nop
  /-- RECV: a write of 0x01 to CMD (R241). -/
  | recv
  /-- SEND: a write of 0x02 to CMD (R242). -/
  | send
  /-- SENDR: a write of 0x03 to CMD (R243). -/
  | sendr
  /-- CMD.ILLEGAL: a write to CMD with some bit of 7:2 set (R246). -/
  | cmdIllegal (code : Byte)
deriving DecidableEq, Repr

end Sys2Proof
end

