-- ==== Sys2Proof/Decode.lean ====
section
/-!
DEFINITION. Decoding, total on any bytes, and the encoder (R90, R96, R97, R110, R111). A byte has no meaning of its
own: the context that takes it decides (R97), so decoding takes a context.
-/

namespace Sys2Proof

/-- What takes the byte (R97, and R110 for a write to CMD). -/
inductive ByteContext where
  /-- The data of a host write to CMD. -/
  | command
  /-- Phase RF_SYNC. -/
  | sync
  /-- Phase HS_WAIT, with the value of CFG.CAN_EN. -/
  | handshake (canEn : Bool)
deriving DecidableEq, Repr

/-- What is being decoded: one byte in a context, or the bytes of a frame on the wire. -/
inductive Context where
  | byte (c : ByteContext)
  | wire
deriving DecidableEq, Repr

/-- Why bytes decode to no instruction. -/
inductive DecodeError where
  /-- There is no byte. -/
  | noByte
  /-- A frame's header (start marker, length, direction) is cut short. -/
  | headerCut
  /-- The first byte of a frame is not the start marker 0x01. -/
  | notStartMarker
  /-- Fewer bytes follow the direction byte than the length byte says (R95). -/
  | bodyCut
  /-- The direction byte is neither 0x00 nor 0x01: neither frame row matches. (The engine, reading byte by byte,
  accepts such a frame: R92, R99 c.) -/
  | noDirectionRow
deriving DecidableEq, Repr

/-- The row a single byte matches in its context: the exact rows first, then the catch-all (R97, R110, R111). -/
def decodeByte : ByteContext → Byte → Instr
  | .command, b =>
    if b = 0x00#8 then .nop
    else if b = 0x01#8 then .recv
    else if b = 0x02#8 then .send
    else if b = 0x03#8 then .sendr
    else .cmdIllegal b
  | .sync, b => if b = 0x01#8 then .sof else .syncSkip b
  | .handshake canEn, b =>
    if b = 0x06#8 then .ack
    else if b = 0x15#8 then .nak
    else if b = 0x18#8 ∧ canEn = true then .can
    else .hsOther b

/-- The frame row whose header stands at the front of the bytes, and what follows the row's bytes: the start marker,
the length byte `L`, the direction byte and `L - 1` more (R90, R91, R95, R111). For `L = 0` the third byte of the row's
pattern is no byte of the frame itself (log 16). -/
def decodeWire : List Byte → Except DecodeError (Instr × List Byte)
  | b :: len :: dir :: rest =>
    if b ≠ 0x01#8 then .error .notStartMarker
    else if rest.length < len.toNat - 1 then .error .bodyCut
    else if dir = 0x00#8 then .ok (.frameReq len (rest.take (len.toNat - 1)), rest.drop (len.toNat - 1))
    else if dir = 0x01#8 then .ok (.frameRes len (rest.take (len.toNat - 1)), rest.drop (len.toNat - 1))
    else .error .noDirectionRow
  | _ => .error .headerCut

/-- The instruction at the front of the bytes in a context, with the bytes after it. -/
def decode : Context → List Byte → Except DecodeError (Instr × List Byte)
  | .byte _, [] => .error .noByte
  | .byte c, b :: rest => .ok (decodeByte c b, rest)
  | .wire, bytes => decodeWire bytes

/-- The bytes of an instruction, from the same tables (R90, R96, R110). -/
def encode : Instr → List Byte
  | .sof => [0x01#8]
  | .syncSkip b => [b]
  | .ack => [0x06#8]
  | .nak => [0x15#8]
  | .can => [0x18#8]
  | .hsOther b => [b]
  | .frameReq len rest => 0x01#8 :: len :: 0x00#8 :: rest
  | .frameRes len rest => 0x01#8 :: len :: 0x01#8 :: rest
  | .nop => [0x00#8]
  | .recv => [0x01#8]
  | .send => [0x02#8]
  | .sendr => [0x03#8]
  | .cmdIllegal code => [code]

/-- The contexts in which an instruction's bytes are read as that instruction. HS.OTHER is the row of 0x18 only while
CFG.CAN_EN is 0, and CAN only while it is 1 (R97). -/
def Instr.inContext : Instr → Context → Bool
  | .sof, .byte .sync => true
  | .syncSkip _, .byte .sync => true
  | .ack, .byte (.handshake _) => true
  | .nak, .byte (.handshake _) => true
  | .can, .byte (.handshake canEn) => canEn
  | .hsOther b, .byte (.handshake canEn) => !(b == 0x18#8 && canEn)
  | .frameReq _ _, .wire => true
  | .frameRes _ _, .wire => true
  | .nop, .byte .command => true
  | .recv, .byte .command => true
  | .send, .byte .command => true
  | .sendr, .byte .command => true
  | .cmdIllegal _, .byte .command => true
  | _, _ => false

/-- The bytes a frame takes on the wire: the start marker, the length byte `L`, and exactly `L` further bytes
(R91, R95). -/
def wireBytes (len dir : Byte) (rest : List Byte) : List Byte :=
  0x01#8 :: len :: (dir :: rest).take len.toNat

/-- The context in which `decodeTableWord` reads a one-byte word of the table: the three handshake bytes in HS_WAIT
(with CFG.CAN_EN = 1, its reset value), every other byte as the data of a write to CMD, the one context the reset
state has (log 10). -/
def tableContext (b : Byte) : ByteContext :=
  if b = 0x06#8 ∨ b = 0x15#8 ∨ b = 0x18#8 then .handshake true else .command

/-- The bytes of a three-byte word of the table, first byte on the wire in bits 23:16 (R111), followed by as many zeros
as the length byte asks for. -/
def tableFrameBytes (w : Nat) : List Byte :=
  [BitVec.ofNat 8 (w >>> 16), BitVec.ofNat 8 (w >>> 8), BitVec.ofNat 8 w] ++
    List.replicate ((BitVec.ofNat 8 (w >>> 8)).toNat - 1) 0x00#8

/-- The instruction the decoder reads from a word of the table (log 10): eight bits are one byte, twenty-four bits are
the header of a frame whose further bytes are zeros. -/
def decodeTableWord (nbits w : Nat) : Option Instr :=
  if nbits = 8 then some (decodeByte (tableContext (BitVec.ofNat 8 w)) (BitVec.ofNat 8 w))
  else if nbits = 24 then
    match decode .wire (tableFrameBytes w) with
    | .ok (i, _) => some i
    | .error _ => none
  else none

end Sys2Proof
end

