-- ==== Sys2Proof/Machine/Receive.lean ====
section
/-!
DEFINITION. The receive operation `readFrame` (R170 to R185): the rows SOF and SYNC.SKIP, and the steps of phases
RF_SYNC, RF_LEN, RF_BODY, RF_CHECK and RF_ACK. Each `…Byte` takes a byte that has already left the queue.
-/

namespace Sys2Proof.Machine

/-- RF_SYNC, the start marker (R174, first arm). -/
def State.startMarker (s : State) : State := s.enter .rfLen

/-- RF_SYNC, any other byte: discarded, counted, the hunt goes on (R174, second arm). -/
def State.desyncByte (s : State) : State := s.countDesync.enter .rfSync

/-- RF_SYNC, no byte: "no frame" (R173). -/
def State.syncStall (s : State) : State := (s.setFlag .tmo).enter .finish

/-- RF_LEN, a byte: the length `L`, whatever it is (R175). -/
def State.lengthByte (s : State) (l : Byte) : State :=
  State.enter { s with rxLen := l, rxCnt := 0#8, acc := 0xFF#8 } (if l = 0#8 then .rfCheck else .rfBody)

/-- RF_BODY, a byte: stored, summed and counted (R177). -/
def State.bodyByte (s : State) (c : Byte) : State :=
  State.enter
    { (s.writeBuf (rxBufBase + s.rxCnt.toNat) c) with acc := s.acc ^^^ c, rxCnt := s.rxCnt + 1#8 }
    (if s.rxCnt.toNat + 1 = s.rxLen.toNat then .rfCheck else .rfBody)

/-- An expiry of T_BYTE inside `ByteWait()`: counted; the wait starts again unless the budget BRB is used up, and then
`ByteWait()` returns none, which is `stalled` (R152; log 5). -/
def State.byteExpiry (s : State) (stalled : State → State) : State :=
  if s.brc + 1#8 = s.brb then stalled { s with brc := s.brc + 1#8 }
  else { s with brc := s.brc + 1#8, tmr := s.tByte }

/-- RF_LEN, `ByteWait()` returns none: "no frame" (R176). -/
def State.lengthStall (s : State) : State := (s.setFlag .lst).enter .finish

/-- RF_BODY, `ByteWait()` returns none: a truncated frame (R178). -/
def State.bodyStall (s : State) : State := (s.setFlag .trn).enter .rfCheck

/-- Whether the frame read is acknowledged: always unless it is truncated and CFG.AOT is 0 (R179, R181). -/
def State.ackDue (s : State) : Bool := !s.flag .trn || s.ackOnTrunc

/-- RF_CHECK (R179, R180). -/
def State.checkFrame (s : State) : State :=
  let a := s.acc ^^^ s.rxLen
  let t := ((({ s with acc := a }).setFlagIf .cse (a != 0x00#8)).setFlagIf .sht (decide (s.rxLen.toNat < 2))).setFlag .rxf
  (t.countCsumIf (a != 0x00#8)).enter (if s.ackDue then .rfAck else .finish)

/-- RF_ACK (R182). -/
def State.ackFrame (s : State) : State := (s.txWrite ackByte).enter .finish

/-- SOF: the byte 0x01, already removed from the queue, taken in RF_SYNC (R174, first arm). -/
def execSof (s : State) : Result :=
  if s.ph = .rfSync then .next s.startMarker else .refused (.outOfContext "SOF")

/-- SYNC.SKIP: another byte, already removed from the queue, taken in RF_SYNC (R174, second arm); which byte it is is not
looked at here (log 25). -/
def execSyncSkip (s : State) : Result :=
  if s.ph = .rfSync then .next s.desyncByte else .refused (.outOfContext "SYNC.SKIP")

end Sys2Proof.Machine
end

