-- ==== Sys2Proof/Machine/Send.lean ====
section
/-!
DEFINITION. The send operation `sendCommand` (R200 to R221) but for the handshake wait: the pre-send clear, the
transmission of a frame byte by byte, the probe flood, the cancel and other-byte branches, the retry bound and the
hand-over to the response read.
-/

namespace Sys2Proof.Machine

/-- PRE_CHK: one spurious acknowledgment when anything is queued (R201). -/
def State.preSendCheck (s : State) : State :=
  (if s.rxAvail then s.txWrite ackByte else s).enter .preDrain

/-- PRE_DRAIN: drain, and begin the frame at its first byte (R202). -/
def State.preSendDrain (s : State) : State := State.enter { s.rxDrain with txi := 0#9 } .tx

/-- The checksum accumulator while a frame of `n` bytes is sent: set at byte 1, summed over the bytes after it, holding
the checksum when the last byte goes out (R203, R30; log 12). -/
def State.sendAcc (s : State) (n : Nat) (b : Byte) : Byte :=
  if s.txi = 0#9 then s.acc
  else if s.txi = 1#9 then 0xFF#8 ^^^ b
  else if s.txi.toNat + 1 < n then s.acc ^^^ b
  else s.acc

/-- TX: byte `b`, at index TXI of a frame of `n` bytes, goes out; the first byte begins a new attempt, the last one
leads to the handshake wait (R203). -/
def State.sendByte (s : State) (n : Nat) (b : Byte) : State :=
  let t := { (s.txWrite b) with att := if s.txi = 0#9 then s.att + 1#8 else s.att, acc := s.sendAcc n b }
  if s.txi.toNat + 1 < n then { t with txi := s.txi + 1#9 } else t.enter .hsWait

/-- TX: one step of the frame `F`; with TXI past its end there is no step (R203; log 13). -/
def sendStep (F : List Byte) (s : State) : Result :=
  match F[s.txi.toNat]? with
  | some b => .next (s.sendByte F.length b)
  | none => .refused .stuckTxIndex

/-- TX: one step of the command's own frame (R203); ENCODE refuses a payload above 253 bytes (U10; log 13). -/
def txStep (s : State) : Result :=
  match s.txFrame with
  | some F => sendStep F s
  | none => .refused .encodeUndefined

/-- PROBE_TX: one probe acknowledgment (R210). -/
def State.sendProbe (s : State) : State := State.enter { (s.txWrite ackByte) with prb := s.prb + 1#6 } .probeGap

/-- PROBE_GAP, a byte is queued: the flood stops; the byte stays (R211). -/
def State.probeAnswered (s : State) : State := s.enter .nextAttempt

/-- PROBE_GAP, the spacing passes with no byte: the next probe, or the end of the flood (R211); no
step with PRB above 32 (log 13). -/
def probeExpiry (s : State) : Result :=
  if s.prb.toNat < Config.probeMax then .next (s.enter .probeTx)
  else if s.prb.toNat = Config.probeMax then .next (s.enter .nextAttempt)
  else .refused .stuckProbeCount

/-- CAN_ACK (R212). -/
def State.cancelAck (s : State) : State := (s.txWrite ackByte).enter .canDrain1

/-- CAN_DRAIN1 (R213). -/
def State.cancelDrain1 (s : State) : State := s.rxDrain.enter .canGap

/-- CAN_GAP, the pause ends (R214). -/
def State.cancelGapOver (s : State) : State := s.enter .canDrain2

/-- CAN_DRAIN2 (R215). -/
def State.cancelDrain2 (s : State) : State := s.rxDrain.enter .nextAttempt

/-- OTH_DRAIN (R216). -/
def State.otherDrain (s : State) : State := s.rxDrain.enter .nextAttempt

/-- NEXT: the same frame again while fewer than CFG.RETRY transmissions were made, else give up (R217). -/
def State.retryOrGiveUp (s : State) : State :=
  if s.att.toNat < s.retry then State.enter { s with txi := 0#9 } .tx else s.enter .post

/-- POST: the response read of a SENDR, or the end (R218). -/
def State.afterSend (s : State) : State := s.enter (if s.op.getLsbD 0 then .rfSync else .finish)

end Sys2Proof.Machine
end

