-- ==== Sys2Proof/Machine/Frames.lean ====
section
/-!
DEFINITION. The rows FRAME.REQ and FRAME.RES as whole frames: what the engine's steps over one frame do, with no step
of another agent between them (R90, R132, R170, R203; log 9). Both are built from the same per-byte operations that
the engine's single steps use.
-/

namespace Sys2Proof.Machine

/-- The bytes of a frame go out from index TXI to its last byte: at most `n` steps of TX (R203). -/
def transmitFrom (F : List Byte) : Nat → State → State
  | 0, s => s
  | n + 1, s =>
    match F[s.txi.toNat]? with
    | some b => transmitFrom F n (s.sendByte F.length b)
    | none => s

/-- Transmit a frame from index TXI; with TXI past its end there is no step (R203; log 13). -/
def transmitFrame (F : List Byte) (s : State) : Result :=
  if s.txi.toNat < F.length then .next (transmitFrom F (F.length - s.txi.toNat) s) else .refused .stuckTxIndex

/-- `readFrame` takes one byte that has left the queue, in the phase it is in (R174, R175, R177). -/
def State.takeByte (s : State) (b : Byte) : State :=
  match s.ph with
  | .rfSync => if b = 0x01#8 then s.startMarker else s.desyncByte
  | .rfLen => s.lengthByte b
  | .rfBody => s.bodyByte b
  | _ => s

/-- `readFrame` takes bytes one after the other. -/
def State.takeBytes (s : State) (bytes : List Byte) : State := bytes.foldl State.takeByte s

/-- `readFrame`'s last steps, once the body is complete: the check, and the acknowledgment when it is due
(R179, R182). -/
def State.finishRead (s : State) : State :=
  if s.ph = .rfCheck then (if s.checkFrame.ph = .rfAck then s.checkFrame.ackFrame else s.checkFrame) else s

/-- `readFrame` over the bytes of one whole frame, which have left the queue (R170). -/
def State.readWhole (s : State) (bytes : List Byte) : State := (s.takeBytes bytes).finishRead

/-- FRAME.REQ: transmitted in TX (R132, R203), read by `readFrame` in RF_SYNC like a response, since the direction
byte is not examined (R92, R170). The operands are taken as they are: that exec in TX sends them even where they are not
the command's own frame is the model's choice, since the spec has no such event and no move does it (log 25). -/
def execFrameReq (len : Byte) (rest : List Byte) (s : State) : Result :=
  if s.ph = .tx then transmitFrame (encode (.frameReq len rest)) s
  else if s.ph = .rfSync then .next (s.readWhole (wireBytes len 0x00#8 rest))
  else .refused (.outOfContext "FRAME.REQ")

/-- FRAME.RES: read by `readFrame` in RF_SYNC (R170); the engine never transmits one (R92, R98). The
operands are taken as they are (log 25). -/
def execFrameRes (len : Byte) (rest : List Byte) (s : State) : Result :=
  if s.ph = .rfSync then .next (s.readWhole (wireBytes len 0x01#8 rest))
  else .refused (.outOfContext "FRAME.RES")

end Sys2Proof.Machine
end

