-- ==== Sys2Proof/Machine/Handshake.lean ====
section
/-!
DEFINITION. The handshake wait HS_WAIT and its four arms (R204 to R208): the rows ACK, NAK, CAN and HS.OTHER, whose
byte has already been removed from the queue, and the expiry.
-/

namespace Sys2Proof.Machine

/-- HS_WAIT, no byte: a retry is logged and the probe flood begins (R205). -/
def State.noReply (s : State) : State := State.enter { (s.setFlag .nrs).countRetry with prb := 0#6 } .probeTx

/-- HS_WAIT, the acknowledgment byte: delivery confirmed (R206). -/
def State.confirmed (s : State) : State := (s.setFlag .txc).enter .post

/-- HS_WAIT, the cancel byte with CFG.CAN_EN = 1 (R207). -/
def State.cancelled (s : State) : State := (s.setFlag .cans).countCan.enter .canAck

/-- HS_WAIT, any other byte (R208). -/
def State.otherReply (s : State) : State := (s.setFlag .oth).countOther.enter .othDrain

/-- ACK taken in HS_WAIT (R206). -/
def execAck (s : State) : Result :=
  if s.ph = .hsWait then .next s.confirmed else .refused (.outOfContext "ACK")

/-- NAK taken in HS_WAIT: it has no arm of its own and is "any other byte" (R208, C8; log 17). -/
def execNak (s : State) : Result :=
  if s.ph = .hsWait then .next s.otherReply else .refused (.outOfContext "NAK")

/-- CAN taken in HS_WAIT: the cancel arm, or "any other byte" when CFG.CAN_EN is 0 (R207, R208). -/
def execCan (s : State) : Result :=
  if s.ph = .hsWait then .next (if s.canEn then s.cancelled else s.otherReply) else .refused (.outOfContext "CAN")

/-- HS.OTHER taken in HS_WAIT; the byte is not kept anywhere (R208, R266), nor looked at here (log 25). -/
def execHsOther (s : State) : Result :=
  if s.ph = .hsWait then .next s.otherReply else .refused (.outOfContext "HS.OTHER")

end Sys2Proof.Machine
end

