-- ==== Sys2Proof/Machine/Dispatch.lean ====
section
/-!
DEFINITION. exec: one arm per row of the encoding table, each one call of its meaning.
-/

namespace Sys2Proof.Machine

def exec (i : Instr) (s : State) : Host.Outcome State Fault Refusal :=
  match i with
  | .sof => Sys2Proof.Machine.execSof s
  | .syncSkip _ => Sys2Proof.Machine.execSyncSkip s
  | .ack => Sys2Proof.Machine.execAck s
  | .nak => Sys2Proof.Machine.execNak s
  | .can => Sys2Proof.Machine.execCan s
  | .hsOther _ => Sys2Proof.Machine.execHsOther s
  | .frameReq len rest => Sys2Proof.Machine.execFrameReq len rest s
  | .frameRes len rest => Sys2Proof.Machine.execFrameRes len rest s
  | .nop => Sys2Proof.Machine.execNop s
  | .recv => Sys2Proof.Machine.execRecv s
  | .send => Sys2Proof.Machine.execSend s
  | .sendr => Sys2Proof.Machine.execSendr s
  | .cmdIllegal _ => Sys2Proof.Machine.execCmdIllegal s

end Sys2Proof.Machine
end

