-- ==== Sys2Proof/Machine/HostAccess.lean ====
section
/-!
DEFINITION. The host's register accesses: the register map (R21), the stores of R249 with the field rules of R22 and
R23, and reads (R251). A write to CMD is decoded and executed (R244).
-/

namespace Sys2Proof.Machine

/-- The index of CMD (R21). -/
def cmdIndex : RegIndex := 0x000#10

/-- PH as read at index 0x00D (R24). -/
def Phase.code : Phase → Nat
  | .idle => 0
  | .preChk => 1
  | .preDrain => 2
  | .tx => 3
  | .hsWait => 4
  | .probeTx => 5
  | .probeGap => 6
  | .canAck => 7
  | .canDrain1 => 8
  | .canGap => 9
  | .canDrain2 => 10
  | .othDrain => 11
  | .nextAttempt => 12
  | .post => 13
  | .rfSync => 14
  | .rfLen => 15
  | .rfBody => 16
  | .rfCheck => 17
  | .rfAck => 18
  | .finish => 19

/-- A register narrower than 16 bits reads with its upper bits zero (R21). -/
def widen (b : Byte) : Word16 := b.setWidth 16

/-- A host write while idle to a register other than CMD: stored as the register's field rules say; nothing for a
read-only register or an unpopulated index (R21, R22, R23, R27, R32, R249). -/
def State.store (s : State) (idx : RegIndex) (data : Word16) : State :=
  let low : Byte := data.setWidth 8
  let n := idx.toNat
  if n = 0x002 then { s with cfg := cfgWritten s.cfg low }
  else if n = 0x003 then { s with timeout := data }
  else if n = 0x004 then { s with tHs := data }
  else if n = 0x005 then { s with tByte := data }
  else if n = 0x006 then { s with tPgap := data }
  else if n = 0x007 then { s with tDgap := data }
  else if n = 0x008 then { s with brb := if low = 0#8 then s.brb else low }
  else if n = 0x009 then { s with txLen := low }
  else if n = 0x015 then s.clearDiag
  else if txBufBase ≤ n ∧ n < txBufBase + txBufSize then s.writeBuf n low
  else s

/-- A host write (R244, R248, R249). -/
def hostWrite (idx : RegIndex) (data : Word16) (s : State) : Result :=
  if idx = cmdIndex then exec (decodeByte .command (data.setWidth 8)) s
  else if s.flag .busy then .next s.overrun
  else .next (s.store idx data)

/-- What a host read gives: the register, or 0 for a write-only register or an unpopulated index (R21, R26, R28, R251).
A byte of RX_BUF at or above RX_CNT, and a byte of TX_BUF not written since reset, is a free value (R27, R28, U5, U6;
log 8). -/
def State.readReg (s : State) (idx : RegIndex) : Word16 :=
  let n := idx.toNat
  if n = 0x001 then statusRead s.status
  else if n = 0x002 then widen (cfgRead s.cfg)
  else if n = 0x003 then s.timeout
  else if n = 0x004 then s.tHs
  else if n = 0x005 then s.tByte
  else if n = 0x006 then s.tPgap
  else if n = 0x007 then s.tDgap
  else if n = 0x008 then widen s.brb
  else if n = 0x009 then widen s.txLen
  else if n = 0x00A then widen s.rxLen
  else if n = 0x00B then widen s.rxCnt
  else if n = 0x00C then widen s.att
  else if n = 0x00D then BitVec.ofNat 16 s.ph.code
  else if n = 0x010 then widen s.diagDesync
  else if n = 0x011 then widen s.diagRetry
  else if n = 0x012 then widen s.diagCsum
  else if n = 0x013 then widen s.diagCan
  else if n = 0x014 then widen s.diagOther
  else if txBufBase ≤ n ∧ n < txBufBase + txBufSize then widen (s.bufByte n)
  else if rxBufBase ≤ n ∧ n < rxBufBase + rxBufSize then
    widen (if n < rxBufBase + s.rxCnt.toNat then s.bufByte n else Config.unspecByte s.epoch n)
  else 0#16

/-- A host read: the answer stands on the port h_rdata; no register changes (R65, R251, R34). -/
def State.hostRead (s : State) (idx : RegIndex) : State := { s with hRdata := s.readReg idx }

end Sys2Proof.Machine
end

