-- ==== Sys2Proof/Machine/Moves.lean ====
section
/-!
DEFINITION. The moves of the four agents: the engine's step in each phase and when it is enabled (R159), the same over
a whole frame (log 9), the TIME step (R158), the timer (R272), the LINK step (R157), and the choice of the next move.
-/

namespace Sys2Proof.Machine

/-- Whether the engine's step is enabled (R159). -/
def State.engineEnabled (s : State) : Bool :=
  match s.ph with
  | .idle => false
  | .canGap => false
  | .hsWait => s.rxAvail
  | .probeGap => s.rxAvail
  | .rfSync => s.rxAvail
  | .rfLen => s.rxAvail
  | .rfBody => s.rxAvail
  | _ => true

/-- Whether the TIME step `Expire` is enabled (R158). -/
def State.expireEnabled (s : State) : Bool :=
  match s.ph with
  | .canGap => true
  | .hsWait => !s.rxAvail
  | .probeGap => !s.rxAvail
  | .rfSync => !s.rxAvail
  | .rfLen => !s.rxAvail
  | .rfBody => !s.rxAvail
  | _ => false

/-- Whether the engine is in a waiting phase (R158). -/
def State.waiting (s : State) : Bool :=
  match s.ph with
  | .hsWait => true
  | .probeGap => true
  | .canGap => true
  | .rfSync => true
  | .rfLen => true
  | .rfBody => true
  | _ => false

/-- FINISH: the end of the command (R250). -/
def State.finishCommand (s : State) : State := ((s.clearFlag .busy).setFlag .done).enter .idle

/-- What a byte taken from the queue does in the phase that took it (R97): in RF_SYNC and HS_WAIT it is decoded and
executed; in RF_LEN and RF_BODY it is data, and RF_BODY has no step once the body is complete (R177; log 13). -/
def consume (b : Byte) (s : State) : Result :=
  match s.ph with
  | .rfSync => exec (decodeByte .sync b) s
  | .hsWait => exec (decodeByte (.handshake s.canEn) b) s
  | .rfLen => .next (s.lengthByte b)
  | .rfBody => if s.rxCnt.toNat < s.rxLen.toNat then .next (s.bodyByte b) else .refused .stuckBodyCount
  | _ => .next s

/-- `RxWait` and `ByteWait` in a phase that takes bytes: the head of the queue is removed and consumed; with nothing
queued the engine has no step (R151, R152, R159). -/
def consumeHead (s : State) : Result :=
  match s.rxTake with
  | some (b, t) => consume b t
  | none => .next s

/-- The engine's step; where it is not enabled nothing changes (R24, R159; log 3). -/
def engineStep (s : State) : Result :=
  match s.ph with
  | .idle => .next s
  | .preChk => .next s.preSendCheck
  | .preDrain => .next s.preSendDrain
  | .tx => txStep s
  | .hsWait => consumeHead s
  | .probeTx => .next s.sendProbe
  | .probeGap => .next (if s.rxAvail then s.probeAnswered else s)
  | .canAck => .next s.cancelAck
  | .canDrain1 => .next s.cancelDrain1
  | .canGap => .next s
  | .canDrain2 => .next s.cancelDrain2
  | .othDrain => .next s.otherDrain
  | .nextAttempt => .next s.retryOrGiveUp
  | .post => .next s.afterSend
  | .rfSync => consumeHead s
  | .rfLen => consumeHead s
  | .rfBody => consumeHead s
  | .rfCheck => .next s.checkFrame
  | .rfAck => .next s.ackFrame
  | .finish => .next s.finishCommand

/-- The whole frame the engine is about to go over, if there is one, and the state with the frame's bytes fetched: in
TX the frame of the command being sent, decoded from its own bytes; in RF_SYNC a frame that stands whole at the head
of the queue, whose `L + 2` bytes are removed (R95, R203, R170; log 9). -/
def fetchFrame (s : State) : Option (Instr × State) :=
  match s.ph with
  | .tx =>
    match s.txFrame with
    | some F =>
      match decode .wire F with
      | .ok (i, _) => some (i, s)
      | .error _ => none
    | none => none
  | .rfSync =>
    match decode .wire s.rxq with
    | .ok (.frameReq len rest, _) => some (.frameReq len rest, { s with rxq := s.rxq.drop (len.toNat + 2) })
    | .ok (.frameRes len rest, _) => some (.frameRes len rest, { s with rxq := s.rxq.drop (len.toNat + 2) })
    | _ => none
  | _ => none

/-- The engine goes over one whole frame; where there is none nothing changes (log 9). -/
def frameStep (s : State) : Result :=
  match fetchFrame s with
  | some (i, t) => exec i t
  | none => .next s

/-- The TIME step `Expire`; where it is not enabled nothing changes (R158, R173, R176, R178, R205, R211, R214;
log 3). -/
def expireStep (s : State) : Result :=
  if s.expireEnabled then
    match s.ph with
    | .hsWait => .next s.noReply
    | .probeGap => probeExpiry s
    | .canGap => .next s.cancelGapOver
    | .rfSync => .next s.syncStall
    | .rfLen => .next (s.byteExpiry State.lengthStall)
    | .rfBody => .next (s.byteExpiry State.bodyStall)
    | _ => .next s
  else .next s

/-- One tick: the timer of the wait in progress counts down, not below 0 (R151, R138 f). -/
def State.tickDown (s : State) : State :=
  { s with tmr := if s.waiting ∧ s.tmr ≠ 0#16 then s.tmr - 1#16 else s.tmr }

/-- One clock edge of the timed form: the engine's step when it is enabled; else the wait ends when its timer stands at
0; else nothing (R151, R155, R156, R269 a; log 4). -/
def clockEdge (s : State) : Result :=
  if s.engineEnabled then engineStep s
  else if s.expireEnabled ∧ s.tmr = 0#16 then expireStep s
  else .next s

/-- The LINK step `Deliver(b)` (R157; log 6). -/
def State.deliver (s : State) (b : Byte) : State :=
  if Config.hasRoom s.rxq.length then { s with rxq := s.rxq ++ [b] } else s.setFlag .fov

/-- One move of one agent (R13; log 18, log 19). -/
def runMove (m : Move) (s : State) : Result :=
  match m with
  | .engine => engineStep s
  | .frame => frameStep s
  | .expire => expireStep s
  | .tick => .next s.tickDown
  | .clk => clockEdge s
  | .deliver b => .next (s.deliver b)
  | .hostWrite idx data => hostWrite idx data s
  | .hostRead idx => .next (s.hostRead idx)
  | .rst => .next s.resetBlock

/-- The next move: the script's first, or a free value when the script is empty (R13; log 1). -/
def State.nextMove (s : State) : Move :=
  match s.script with
  | [] => Config.freeMove s.now
  | m :: _ => m

/-- The model's own bookkeeping of one step: the script moves on, the step is counted, and the free bytes are free
afresh after every move but a host read, which changes nothing (R65, R251; log 2, log 8). -/
def State.advance (s : State) (m : Move) : State :=
  { s with
    script := s.script.tail
    now := s.now + 1
    epoch := match m with
      | .hostRead _ => s.epoch
      | _ => s.epoch + 1 }

/-- Place a one-byte word of the table where the next step takes it: in HS_WAIT at the head of the queue with the
engine to move (and the cancel branch enabled for 0x18), or as the host's next write to CMD (log 10, log 11). -/
def State.placeByte (s : State) (b : Byte) : State :=
  match tableContext b with
  | .handshake _ =>
    { s with
      ph := .hsWait
      cfg := if b = 0x18#8 then s.cfg ||| 0x10#8 else s.cfg
      rxq := b :: s.rxq
      script := .engine :: s.script }
  | _ => { s with script := .hostWrite cmdIndex (widen b) :: s.script }

/-- Place a frame of the table at the head of the queue, in RF_SYNC, with the engine to go over the whole frame
(log 10, log 11). -/
def State.placeFrame (s : State) (bytes : List Byte) : State :=
  { s with ph := .rfSync, rxq := bytes ++ s.rxq, script := .frame :: s.script }

end Sys2Proof.Machine
end

