-- ==== Sys2Proof/Machine/Step.lean ====
section
/-!
DEFINITION. step: the next agent's move (R13, R67), and the host's way of placing a word of the encoding table where
the next step runs it.
-/

namespace Sys2Proof.Machine

/-- One step of the machine: the next move, run in the state whose script has moved on. -/
def step (s : State) : Host.Outcome State Fault Refusal := runMove s.nextMove (s.advance s.nextMove)

/-- The state with a word of the encoding table placed where the next step runs it (log 10, log 11). -/
def State.withFetchWord (s : State) (nbits w : Nat) : State :=
  if nbits = 24 then s.placeFrame (tableFrameBytes w) else s.placeByte (BitVec.ofNat 8 w)

end Sys2Proof.Machine
end

