-- ==== Sys2Proof/Safety.lean ====
section
/-!
DEFINITION. What counts as a safe run, in the terms the statements use: the invariant of the machine, the invariant of
the receive result, the phases by the part they play, the bound on the steps of an operation, and equality of states
up to the wait in progress.
-/

namespace Sys2Proof.Safety

open Sys2Proof.Machine

/-- The phases of `sendCommand`, PRE_CHK to POST (R24, R200). -/
def sendPhase : Phase → Bool
  | .preChk => true
  | .preDrain => true
  | .tx => true
  | .hsWait => true
  | .probeTx => true
  | .probeGap => true
  | .canAck => true
  | .canDrain1 => true
  | .canGap => true
  | .canDrain2 => true
  | .othDrain => true
  | .nextAttempt => true
  | .post => true
  | _ => false

/-- The phases of `sendCommand` after the first transmission has begun (R203, R204). -/
def attemptPhase : Phase → Bool
  | .hsWait => true
  | .probeTx => true
  | .probeGap => true
  | .canAck => true
  | .canDrain1 => true
  | .canGap => true
  | .canDrain2 => true
  | .othDrain => true
  | .nextAttempt => true
  | .post => true
  | _ => false

/-- The phases after the handshake of a command: its frame is not transmitted again (R206, R218). -/
def afterHandshake : Phase → Bool
  | .post => true
  | .rfSync => true
  | .rfLen => true
  | .rfBody => true
  | .rfCheck => true
  | .rfAck => true
  | .finish => true
  | _ => false

/-- The two states agree on everything but the timer and the expiry count of the wait in progress, which the rules of
the phases do not mention (R30, R151, R152). -/
def UpToWait (s t : State) : Prop := { s with tmr := 0#16, brc := 0#8 } = { t with tmr := 0#16, brc := 0#8 }

/-- The queue fits RX_FIFO_DEPTH, whatever that is (R31, R157). -/
def queueFits (s : State) : Prop :=
  match Config.rxFifoDepthPred with
  | none => True
  | some d => s.rxq.length ≤ d + 1

/-- The invariant of the machine: the ranges the spec states for registers and counters, phase by phase. It holds at
reset and every step keeps it. -/
structure Inv (s : State) : Prop where
  /-- Memory is canonical and lists only bytes of the two buffers (R60). -/
  memWf : Memory.wf s.mem
  /-- STATUS bit 15 is reserved (R26, U8). -/
  statusReserved : s.status.getLsbD 15 = false
  /-- CFG bits 7:6 are reserved (R22, U8). -/
  cfgReserved : s.cfg.toNat < 64
  /-- RETRY is 1 to 15 (R22, U18). -/
  retryPos : 1 ≤ s.retry
  /-- BRB is never 0 (R23, U18). -/
  brbPos : s.brb ≠ 0#8
  /-- `PH == IDLE` exactly when `STATUS.BUSY == 0` (R244). -/
  idleIff : s.ph = .idle ↔ s.flag .busy = false
  /-- DONE is not set while a command runs (R245, R250). -/
  notDone : s.flag .busy = true → s.flag .done = false
  /-- ATT values 0 to 15 occur (R29). -/
  attLe : s.att.toNat ≤ 15
  /-- No more transmissions than CFG.RETRY in one command (R29, R217). -/
  attBound : s.flag .busy = true → s.att.toNat ≤ s.retry
  /-- RX_CNT is 0 to RX_LEN (R28). -/
  cntLe : s.rxCnt.toNat ≤ s.rxLen.toNat
  /-- The collected body bytes stand in RX_BUF (R28). -/
  bodyWritten : ∀ i < s.rxCnt.toNat, (Memory.read s.mem (rxBufBase + i)).isSome = true
  /-- A send phase belongs to a SEND or SENDR (R30, R245). -/
  sendOp : sendPhase s.ph = true → s.op.getLsbD 1 = true
  /-- A command that sends has a legal payload, all written (R27, R247). -/
  sendPayload : sendPhase s.ph = true → s.txLen.toNat ≤ 253 ∧ s.payloadWritten = true
  /-- TXI is 0 to TX_LEN + 3 (R30, R138 d). -/
  txRange : s.ph = .tx → s.txi.toNat ≤ s.txLen.toNat + 3
  /-- An attempt is left when a transmission begins (R217). -/
  txBegin : s.ph = .tx → s.txi = 0#9 → s.att.toNat < s.retry
  /-- A transmission in progress has been counted (R203). -/
  txCounted : s.ph = .tx → s.txi ≠ 0#9 → 1 ≤ s.att.toNat
  /-- Nothing has been transmitted before the pre-send clear (R245). -/
  preAttempt : s.ph = .preChk ∨ s.ph = .preDrain → s.att = 0#8
  /-- After the first transmission, ATT is at least 1 (R220 a). -/
  attPos : attemptPhase s.ph = true → 1 ≤ s.att.toNat
  /-- PRB is 0 to 32 (R30). -/
  probeLe : s.prb.toNat ≤ 32
  /-- A probe is sent only while fewer than 32 were (R211). -/
  probeLeft : s.ph = .probeTx → s.prb.toNat < 32
  /-- The body is read only while bytes of it are missing (R177). -/
  bodyLeft : s.ph = .rfBody → s.rxCnt.toNat < s.rxLen.toNat
  /-- BRC stays below BRB while a byte is awaited (R30, R152). -/
  budgetLeft : s.ph = .rfLen ∨ s.ph = .rfBody → s.brc.toNat < s.brb.toNat
  /-- RXQ is no longer than its capacity (R31). -/
  queue : queueFits s

/-- The invariant of the receive operation and its result (R171, R177, R179, R183, R268): until the check the flags are
clear and ACC is the running exclusive-or of the body; from the check on, the flags say what VERIFY says of the bytes
in RX_BUF. -/
structure ReadInv (s : State) : Prop where
  /-- Before the length byte everything of the result is clear (R171). -/
  untouched : sendPhase s.ph = true ∨ s.ph = .rfSync ∨ s.ph = .rfLen →
    s.rxLen = 0#8 ∧ s.rxCnt = 0#8 ∧ s.flag .rxf = false ∧ s.flag .cse = false ∧ s.flag .trn = false ∧
      s.flag .sht = false ∧ s.flag .tmo = false ∧ s.flag .lst = false
  /-- While the body is read, no result flag is set (R175, R177). -/
  reading : s.ph = .rfBody → s.flag .trn = false
  /-- Up to the check, ACC is the checksum of the bytes collected (R177). -/
  collecting : s.ph = .rfBody ∨ s.ph = .rfCheck →
    s.acc = csum s.rxBody ∧ s.flag .rxf = false ∧ s.flag .cse = false ∧ s.flag .sht = false ∧
      s.flag .tmo = false ∧ s.flag .lst = false
  /-- A frame that is not truncated is complete (R28). -/
  complete : s.ph = .rfCheck ∨ s.flag .rxf = true → s.flag .trn = false → s.rxCnt = s.rxLen
  /-- A truncated frame is not complete (R28, R178). -/
  truncated : s.ph = .rfCheck ∨ s.flag .rxf = true → s.flag .trn = true → s.rxCnt.toNat < s.rxLen.toNat
  /-- A frame that is waiting for its acknowledgment has been checked (R179, R182). -/
  checked : s.ph = .rfAck → s.flag .rxf = true
  /-- With RXF, the flags say what VERIFY says of the body in RX_BUF, and how long it was (R179, R183 b). -/
  verdict : s.flag .rxf = true →
    s.acc = (verify s.rxLen s.rxBody).1 ∧ s.flag .cse = !(verify s.rxLen s.rxBody).2 ∧
      s.flag .sht = decide (s.rxLen.toNat < 2) ∧ s.flag .tmo = false ∧ s.flag .lst = false
  /-- Without a frame, at most one of TMO and LST says why (R183 a). -/
  oneReason : s.flag .tmo = true → s.flag .lst = false

/-- The steps one attempt may take: the frame bytes, the handshake wait, the probe flood, and NEXT (R220 g). -/
def attemptCost (s : State) : Nat := s.txLen.toNat + 4 + 1 + 64 + 1

/-- What all the attempts not yet begun may cost (R217, R220 g). -/
def attemptsLeft (s : State) : Nat := (s.retry - s.att.toNat) * attemptCost s

/-- A bound on the engine and TIME steps the send phases may still take (R220 g); 0 outside them. -/
def sendFuel (s : State) : Nat :=
  match s.ph with
  | .preChk => attemptsLeft s + 3
  | .preDrain => attemptsLeft s + 2
  | .tx =>
    if s.txi = 0#9 then attemptsLeft s + 1
    else attemptsLeft s + (s.txLen.toNat + 4 - s.txi.toNat) + 67
  | .hsWait => attemptsLeft s + 67
  | .probeTx => attemptsLeft s + 2 * (32 - s.prb.toNat) + 2
  | .probeGap => attemptsLeft s + 2 * (32 - s.prb.toNat) + 3
  | .canAck => attemptsLeft s + 6
  | .canDrain1 => attemptsLeft s + 5
  | .canGap => attemptsLeft s + 4
  | .canDrain2 => attemptsLeft s + 3
  | .othDrain => attemptsLeft s + 3
  | .nextAttempt => attemptsLeft s + 2
  | .post => 1
  | _ => 0

/-- A bound on the engine and TIME steps `readFrame` may still take once it has its start marker (R310); 0 outside
those phases. -/
def readFuel (s : State) : Nat :=
  match s.ph with
  | .rfLen => 3 + 256 * s.brb.toNat - s.brc.toNat
  | .rfBody => 3 + (s.rxLen.toNat - s.rxCnt.toNat) * s.brb.toNat - s.brc.toNat
  | .rfCheck => 3
  | .rfAck => 2
  | .finish => 1
  | _ => 0

/-- Engine steps one after the other, stopping at the first that is no next state (R67). -/
def engineSteps : Nat → State → Result
  | 0, s => .next s
  | n + 1, s =>
    match engineStep s with
    | .next t => engineSteps n t
    | r => r

end Sys2Proof.Safety
end

