-- ==== Sys2Proof/WellFormed.lean ====
section
/-!
DEFINITION. When an instruction's operands are ones its row of the encoding table allows. The rows SYNC.SKIP,
HS.OTHER and CMD.ILLEGAL are catch-alls applied after the exact rows of their context (R111), so they exclude those
rows' bytes; a frame carries as many bytes after its direction byte as its length byte says (R90, R91, R95).
-/

namespace Sys2Proof

/-- The operands are ones the row of the encoding table allows. -/
def Instr.wellFormed : Instr → Bool
  | .sof => true
  | .syncSkip b => b != 0x01#8
  | .ack => true
  | .nak => true
  | .can => true
  | .hsOther b => b != 0x06#8 && b != 0x15#8
  | .frameReq len rest => rest.length == len.toNat - 1
  | .frameRes len rest => rest.length == len.toNat - 1
  | .nop => true
  | .recv => true
  | .send => true
  | .sendr => true
  | .cmdIllegal code => decide (4 ≤ code.toNat)

end Sys2Proof
end

