-- ==== Sys2Proof/Certificates/Slice0/Obligations.lean ====
section
/-!
DEFINITION. The statements for the provers. Each says what an instruction, an agent's step, the codec or the machine
does, and names the rules of the spec it comes from. `UpToWait t u` says that t is u but for the timer and the expiry
count of the wait in progress, which the phase rules do not mention; WaitStartsAfresh and ByteWaitBudget say what
those two are.
-/

open Sys2Proof Sys2Proof.Machine Sys2Proof.Safety

/-! Host commands (44_host_commands.md). -/

/-- NOP changes no state while idle; while busy it is a write while busy (R240). -/
def Obligations.NopDoesNothing : Prop :=
  decodeByte .command 0x00#8 = .nop ∧
  ∀ s : State,
    (s.flag .busy = false → exec .nop s = .next s) ∧
    (s.flag .busy = true → exec .nop s = .next { s with status := s.status ||| 0x0400#16 })

/-- Accept: RECV, SEND and SENDR while idle, the last two with a legal written payload; and nothing but a write of one
of the three codes to CMD starts a command (R245). -/
def Obligations.CommandAccepted : Prop :=
  (∀ s : State, s.flag .busy = false →
    (∃ t, exec .recv s = .next t ∧
      UpToWait t { s with status := (s.status &&& 0x8000#16) ||| 0x0001#16, op := 1#2, att := 0#8, rxLen := 0#8,
                          rxCnt := 0#8, ph := .rfSync }) ∧
    (s.txLen.toNat ≤ 253 → s.payloadWritten = true →
      (∃ t, exec .send s = .next t ∧
        UpToWait t { s with status := (s.status &&& 0x8000#16) ||| 0x0001#16, op := 2#2, att := 0#8, rxLen := 0#8,
                            rxCnt := 0#8, ph := .preChk }) ∧
      (∃ t, exec .sendr s = .next t ∧
        UpToWait t { s with status := (s.status &&& 0x8000#16) ||| 0x0001#16, op := 3#2, att := 0#8, rxLen := 0#8,
                            rxCnt := 0#8, ph := .preChk }))) ∧
  (∀ (m : Move) (s t : State), runMove m s = .next t → s.flag .busy = false → t.flag .busy = true →
    ∃ data : Word16, m = .hostWrite 0x000#10 data ∧ 1 ≤ data.toNat % 256 ∧ data.toNat % 256 ≤ 3)

/-- A SEND or SENDR with TX_LEN above 253 is refused with ILL and nothing else changes; a RECV is not subject to the
test (R247). -/
def Obligations.LongPayloadRefused : Prop :=
  decodeByte .command 0x02#8 = .send ∧ decodeByte .command 0x03#8 = .sendr ∧ decodeByte .command 0x01#8 = .recv ∧
  ∀ s : State, s.flag .busy = false → 253 < s.txLen.toNat →
    exec .send s = .next { s with status := s.status ||| 0x0200#16 } ∧
    exec .sendr s = .next { s with status := s.status ||| 0x0200#16 } ∧
    ∃ t, exec .recv s = .next t ∧ t.ph = .rfSync ∧ t.flag .busy = true

/-- A command code with some bit of 7:2 set is refused while idle: ILL is set, nothing else changes; ILL then stays
until the next accepted command or reset (R246). -/
def Obligations.IllegalCommandRefused : Prop :=
  (∀ (s : State) (c : Byte), 4 ≤ c.toNat → s.flag .busy = false →
    decodeByte .command c = .cmdIllegal c ∧
    exec (.cmdIllegal c) s = .next { s with status := s.status ||| 0x0200#16 }) ∧
  ∀ (m : Move) (s t : State), runMove m s = .next t → s.flag .ill = true →
    t.flag .ill = true ∨ m = .rst ∨ (s.flag .busy = false ∧ t.flag .busy = true)

/-- Any host write while BUSY is 1 is ignored and sets OVR, which then stays until the next accepted command or reset
(R248). -/
def Obligations.WriteWhileBusyIgnored : Prop :=
  (∀ (s : State) (idx : RegIndex) (data : Word16), s.flag .busy = true →
    runMove (.hostWrite idx data) s = .next { s with status := s.status ||| 0x0400#16 }) ∧
  ∀ (m : Move) (s t : State), runMove m s = .next t → s.flag .ovr = true →
    t.flag .ovr = true ∨ m = .rst ∨ (s.flag .busy = false ∧ t.flag .busy = true)

/-- A SEND or SENDR over a payload byte never written since reset is refused by the model, and only over such a byte
(R27, U6; log 7). -/
def Obligations.UnwrittenPayloadRefused : Prop :=
  ∀ s : State, s.flag .busy = false → s.txLen.toNat ≤ 253 →
    ((∃ i, i < s.txLen.toNat ∧ Memory.read s.mem (0x100 + i) = none) ↔ exec .send s = .refused .txBufUnwritten) ∧
    ((∃ i, i < s.txLen.toNat ∧ Memory.read s.mem (0x100 + i) = none) ↔ exec .sendr s = .refused .txBufUnwritten)

/-- FINISH: BUSY falls, DONE and the port done rise, the engine is idle, nothing else changes; and while the engine is
idle no step but reset or the next accept writes a result (R250). -/
def Obligations.FinishEndsCommand : Prop :=
  (∀ s : State, s.ph = .finish →
    ∃ t, runMove .engine s = .next t ∧
      t = { s with status := (s.status &&& 0xFFFE#16) ||| 0x0002#16, ph := .idle } ∧ t.donePort = true) ∧
  ∀ (m : Move) (s t : State), s.ph = .idle → s.flag .busy = false → runMove m s = .next t → t.ph = .idle → m ≠ .rst →
    t.rxLen = s.rxLen ∧ t.rxCnt = s.rxCnt ∧ t.att = s.att ∧ t.acc = s.acc ∧
    (∀ f, f ≠ .ill → f ≠ .fov → t.flag f = s.flag f) ∧
    ∀ a, 0x200 ≤ a → Memory.read t.mem a = Memory.read s.mem a

/-! The handshake (43_send.md, section 4). -/

/-- The acknowledgment byte: TXC is set and the retries stop; no phase that follows in the same command transmits the
frame again (R206). -/
def Obligations.AckConfirmsDelivery : Prop :=
  (∀ canEn, decodeByte (.handshake canEn) 0x06#8 = .ack) ∧
  (∀ s : State, s.ph = .hsWait → exec .ack s = .next { s with status := s.status ||| 0x0004#16, ph := .post }) ∧
  ∀ (m : Move) (s t : State), afterHandshake s.ph = true → s.flag .busy = true → runMove m s = .next t →
    afterHandshake t.ph = true ∨ t.ph = .idle

/-- The cancel byte: the cancel branch with CFG.CAN_EN = 1, the other-byte branch with CFG.CAN_EN = 0 (R207). -/
def Obligations.CancelByteTakesItsBranch : Prop :=
  decodeByte (.handshake true) 0x18#8 = .can ∧
  ∀ s : State, s.ph = .hsWait →
    (s.cfg.getLsbD 4 = true →
      exec .can s = .next { s with
        status := s.status ||| 0x0800#16
        diagCan := if s.diagCan = 255#8 then 255#8 else s.diagCan + 1#8
        ph := .canAck }) ∧
    (s.cfg.getLsbD 4 = false →
      exec .can s = .next { s with
        status := s.status ||| 0x2000#16
        diagOther := if s.diagOther = 255#8 then 255#8 else s.diagOther + 1#8
        ph := .othDrain } ∧
      exec (decodeByte (.handshake (s.cfg.getLsbD 4)) 0x18#8) s = exec .can s)

/-- Any other byte, NAK among them: OTH is set, counted, and the link is drained next; the byte is not kept (R208). That
exec of HS.OTHER does the same for an operand the decoder does not give it here is the model's choice (log 25). -/
def Obligations.OtherReplyIsUnexpected : Prop :=
  ∀ s : State, s.ph = .hsWait →
    (exec .nak s = .next { s with
        status := s.status ||| 0x2000#16
        diagOther := if s.diagOther = 255#8 then 255#8 else s.diagOther + 1#8
        ph := .othDrain }) ∧
    (∀ b : Byte, exec (.hsOther b) s = .next { s with
        status := s.status ||| 0x2000#16
        diagOther := if s.diagOther = 255#8 then 255#8 else s.diagOther + 1#8
        ph := .othDrain }) ∧
    (∀ b : Byte, b ≠ 0x06#8 → ¬(b = 0x18#8 ∧ s.cfg.getLsbD 4 = true) →
      exec (decodeByte (.handshake (s.cfg.getLsbD 4)) b) s = .next { s with
        status := s.status ||| 0x2000#16
        diagOther := if s.diagOther = 255#8 then 255#8 else s.diagOther + 1#8
        ph := .othDrain })

/-- A handshake wait that expires: NRS is set, a retry is counted, the flood begins at its first probe, whatever the
number of attempts left (R205). -/
def Obligations.SilenceStartsProbeFlood : Prop :=
  ∀ s : State, s.ph = .hsWait → s.rxq = [] →
    runMove .expire s = .next { s with
      status := s.status ||| 0x1000#16
      diagRetry := if s.diagRetry = 255#8 then 255#8 else s.diagRetry + 1#8
      prb := 0#6
      ph := .probeTx }

/-! The other send phases (43_send.md). -/

/-- The pre-send clear: one acknowledgment when anything is queued, then the drain; no later step of the command comes
back to it (R201, R202). -/
def Obligations.PreSendClear : Prop :=
  (∀ (m : Move) (s t : State), runMove m s = .next t → s.flag .busy = true →
    (t.ph = .preChk → s.ph = .preChk) ∧ (t.ph = .preDrain → s.ph = .preChk ∨ s.ph = .preDrain)) ∧
  ∀ s : State,
    (s.ph = .preChk →
      runMove .engine s = .next { s with txLog := if s.rxq = [] then s.txLog else s.txLog ++ [0x06#8], ph := .preDrain }) ∧
    (s.ph = .preDrain → runMove .engine s = .next { s with rxq := [], txi := 0#9, ph := .tx })

/-- TX: one byte of the frame ENCODE(TX_BUF[0 .. TX_LEN-1]) goes out, the first one counts the attempt, the last one
leads to the handshake wait (R203). -/
def Obligations.TransmitsOneByte : Prop :=
  ∀ (s : State) (F : List Byte) (b : Byte), s.ph = .tx → s.txFrame = some F → F[s.txi.toNat]? = some b →
    F.length = s.txLen.toNat + 4 ∧
    ∃ t, runMove .engine s = .next t ∧
      UpToWait t { s with
        att := if s.txi = 0#9 then s.att + 1#8 else s.att
        txLog := s.txLog ++ [b]
        txi := if s.txi.toNat < s.txLen.toNat + 3 then s.txi + 1#9 else s.txi
        ph := if s.txi.toNat = s.txLen.toNat + 3 then .hsWait else .tx
        acc := t.acc }

/-- The probe flood: send, then wait the spacing; a queued byte ends it and stays queued; it ends after 32 probes
(R210, R211). -/
def Obligations.ProbeFloodSteps : Prop :=
  ∀ s : State,
    (s.ph = .probeTx → ∃ t, runMove .engine s = .next t ∧
      UpToWait t { s with txLog := s.txLog ++ [0x06#8], prb := s.prb + 1#6, ph := .probeGap }) ∧
    (s.ph = .probeGap → s.rxq ≠ [] → runMove .engine s = .next { s with ph := .nextAttempt }) ∧
    (s.ph = .probeGap → s.rxq = [] → s.prb.toNat = 32 → runMove .expire s = .next { s with ph := .nextAttempt }) ∧
    (s.ph = .probeGap → s.rxq = [] → s.prb.toNat < 32 → runMove .expire s = .next { s with ph := .probeTx })

/-- The cancel branch: an acknowledgment, a drain, a pause that only TIME ends and in which bytes may arrive, a second
drain; the other-byte branch: one drain, no acknowledgment, no pause (R212, R213, R214, R215, R216). That a move of the
engine in CAN_GAP, where it has no step, changes nothing is the model's choice (log 3). -/
def Obligations.CancelAndOtherBranches : Prop :=
  ∀ s : State,
    (s.ph = .canAck → runMove .engine s = .next { s with txLog := s.txLog ++ [0x06#8], ph := .canDrain1 }) ∧
    (s.ph = .canDrain1 → ∃ t, runMove .engine s = .next t ∧ UpToWait t { s with rxq := [], ph := .canGap }) ∧
    (s.ph = .canGap → runMove .expire s = .next { s with ph := .canDrain2 }) ∧
    (s.ph = .canGap → runMove .engine s = .next s ∧ ∀ b, ∃ t, runMove (.deliver b) s = .next t ∧ t.ph = .canGap) ∧
    (s.ph = .canDrain2 → runMove .engine s = .next { s with rxq := [], ph := .nextAttempt }) ∧
    (s.ph = .othDrain → runMove .engine s = .next { s with rxq := [], ph := .nextAttempt })

/-- NEXT: while fewer than CFG.RETRY transmissions were made, TXI is cleared and TX follows, else POST follows; neither
arm writes a flag or ATT, and nothing else changes (the two arms of R217). -/
def Obligations.RetryIsBounded : Prop :=
  ∀ s : State, s.ph = .nextAttempt →
    (s.att.toNat < s.cfg.toNat % 16 → runMove .engine s = .next { s with txi := 0#9, ph := .tx }) ∧
    (¬ s.att.toNat < s.cfg.toNat % 16 → runMove .engine s = .next { s with ph := .post })

/-- POST: SENDR reads a response whether or not delivery was confirmed, SEND ends (R218). -/
def Obligations.PostReadsIfRequested : Prop :=
  ∀ s : State, s.ph = .post →
    (s.op.getLsbD 0 = true → ∃ t, runMove .engine s = .next t ∧ UpToWait t { s with ph := .rfSync }) ∧
    (s.op.getLsbD 0 = false → runMove .engine s = .next { s with ph := .finish })

/-! The receive phases (42_receive.md). -/

/-- The hunt for the start marker: 0x01 leads to the length byte, any other byte is discarded and counted (R174).
That exec of SYNC.SKIP does the same for the operand 0x01, which the decoder does not give it, is the model's choice
(log 25). -/
def Obligations.StartMarkerHunt : Prop :=
  (∀ b : Byte, decodeByte .sync b = if b = 0x01#8 then .sof else .syncSkip b) ∧
  ∀ s : State, s.ph = .rfSync →
    (∃ t, exec .sof s = .next t ∧ UpToWait t { s with ph := .rfLen }) ∧
    (∀ b : Byte, ∃ t, exec (.syncSkip b) s = .next t ∧
      UpToWait t { s with diagDesync := if s.diagDesync = 255#8 then 255#8 else s.diagDesync + 1#8, ph := .rfSync })

/-- A synchronisation read that expires ends `readFrame` with TMO, and nothing else (R173). -/
def Obligations.SyncExpiryIsNoFrame : Prop :=
  ∀ s : State, s.ph = .rfSync → s.rxq = [] →
    runMove .expire s = .next { s with status := s.status ||| 0x0080#16, ph := .finish }

/-- The length byte: any value is accepted, zero leads straight to the check; a stall that uses up the byte budget
ends with LST and no acknowledgment (R175, R176). -/
def Obligations.LengthByteRead : Prop :=
  ∀ s : State, s.ph = .rfLen →
    (∀ l q, s.rxq = l :: q → ∃ t, runMove .engine s = .next t ∧
      UpToWait t { s with rxq := q, rxLen := l, rxCnt := 0#8, acc := 0xFF#8,
                          ph := if l = 0#8 then .rfCheck else .rfBody }) ∧
    (s.rxq = [] → s.brc + 1#8 = s.brb → ∃ t, runMove .expire s = .next t ∧
      UpToWait t { s with status := s.status ||| 0x0100#16, ph := .finish })

/-- A body byte: stored at RX_BUF[RX_CNT] and nowhere else, summed and counted; a stall that uses up the byte budget
sets TRN and goes to the check (R177, R178). -/
def Obligations.BodyByteRead : Prop :=
  ∀ s : State, s.ph = .rfBody →
    (∀ c q, s.rxq = c :: q → s.rxCnt.toNat < s.rxLen.toNat → ∃ t, runMove .engine s = .next t ∧
      UpToWait t { s with rxq := q, mem := t.mem, acc := s.acc ^^^ c, rxCnt := s.rxCnt + 1#8,
                          ph := if s.rxCnt.toNat + 1 = s.rxLen.toNat then .rfCheck else .rfBody } ∧
      ∀ a, Memory.read t.mem a = if a = 0x200 + s.rxCnt.toNat then some c else Memory.read s.mem a) ∧
    (s.rxq = [] → s.brc + 1#8 = s.brb → ∃ t, runMove .expire s = .next t ∧
      UpToWait t { s with status := s.status ||| 0x0020#16, ph := .rfCheck })

/-- `ByteWait()`: an expiry short of the budget is counted and the wait of T_BYTE starts again (R152). That BRC and
the budget are modelled in this full form is the model's choice (log 5), and that the timer is loaded in the step of the
expiry is the model's reading (log 4). -/
def Obligations.ByteWaitBudget : Prop :=
  ∀ s : State, s.ph = .rfLen ∨ s.ph = .rfBody → s.rxq = [] →
    (s.brc + 1#8 ≠ s.brb → runMove .expire s = .next { s with brc := s.brc + 1#8, tmr := s.tByte }) ∧
    (s.brc + 1#8 = s.brb → ∃ t, runMove .expire s = .next t ∧ t.ph ≠ s.ph ∧ t.brc = s.brb)

/-- The check: CSE, SHT, RXF and DIAG_CSUM from the accumulator and the length, and the acknowledgment unless the frame
is truncated and CFG.AOT is 0 (R179, R181). -/
def Obligations.CheckSetsFlags : Prop :=
  ∀ s : State, s.ph = .rfCheck →
    runMove .engine s = .next { s with
      acc := s.acc ^^^ s.rxLen
      status := s.status ||| (if s.acc ^^^ s.rxLen = 0#8 then 0#16 else 0x0010#16) |||
        (if s.rxLen.toNat < 2 then 0x0040#16 else 0#16) ||| 0x0008#16
      diagCsum := if s.acc ^^^ s.rxLen = 0#8 then s.diagCsum
        else if s.diagCsum = 255#8 then 255#8 else s.diagCsum + 1#8
      ph := if s.flag .trn = false ∨ s.cfg.getLsbD 5 = true then .rfAck else .finish }

/-- The acknowledgment of a frame: the single byte 0x06 (R182). -/
def Obligations.FrameIsAcknowledged : Prop :=
  ∀ s : State, s.ph = .rfAck → runMove .engine s = .next { s with txLog := s.txLog ++ [0x06#8], ph := .finish }

/-! Whole frames: the rows FRAME.REQ and FRAME.RES. -/

/-- FRAME.REQ in TX: the frame's bytes from index TXI on go out in order, and the handshake wait follows (the steps of
R203 over the whole frame). That a whole frame is one step, and that exec sends any operands, not only the command's own
frame, are the model's choices (log 9, log 25). -/
def Obligations.FrameReqTransmitsToItsEnd : Prop :=
  ∀ (s : State) (len : Byte) (rest : List Byte), (Instr.frameReq len rest).wellFormed = true → s.ph = .tx →
    s.txi.toNat < (encode (.frameReq len rest)).length →
    ∃ t, exec (.frameReq len rest) s = .next t ∧
      UpToWait t { s with
        att := if s.txi = 0#9 then s.att + 1#8 else s.att
        txLog := s.txLog ++ (encode (.frameReq len rest)).drop s.txi.toNat
        txi := BitVec.ofNat 9 ((encode (.frameReq len rest)).length - 1)
        ph := .hsWait
        acc := t.acc }

/-- FRAME.REQ and FRAME.RES in RF_SYNC: `readFrame` over the whole frame. The L bytes after the length byte stand in
RX_BUF and nothing else of memory changes; the flags, counters and registers are those of R170. That a whole frame is one step is the
model's choice (log 9). -/
def Obligations.WholeFrameIsRead : Prop :=
  ∀ (s : State) (len : Byte) (rest : List Byte), rest.length = len.toNat - 1 → s.ph = .rfSync →
    ∀ i dir, (i = Instr.frameReq len rest ∧ dir = 0x00#8 ∨ i = Instr.frameRes len rest ∧ dir = 0x01#8) →
      ∀ body, body = (dir :: rest).take len.toNat →
        ∃ t, exec i s = .next t ∧
          UpToWait t { s with
            mem := t.mem
            rxLen := len
            rxCnt := len
            acc := csum body ^^^ len
            status := s.status ||| (if csum body ^^^ len = 0#8 then 0#16 else 0x0010#16) |||
              (if len.toNat < 2 then 0x0040#16 else 0#16) ||| 0x0008#16
            diagCsum := if csum body ^^^ len = 0#8 then s.diagCsum
              else if s.diagCsum = 255#8 then 255#8 else s.diagCsum + 1#8
            txLog := if s.flag .trn = false ∨ s.cfg.getLsbD 5 = true then s.txLog ++ [0x06#8] else s.txLog
            ph := .finish } ∧
          body.length = len.toNat ∧
          ∀ a, Memory.read t.mem a =
            if 0x200 ≤ a ∧ a < 0x200 + len.toNat then body[a - 0x200]? else Memory.read s.mem a

/-- The direction byte is not examined: the same frame with direction 0x00 and with 0x01 is read alike, but for the
byte itself in RX_BUF[0] and what the checksum makes of it (R92). It is said of the two rows as whole frames, a meaning
that is the model's choice (log 9). -/
def Obligations.DirectionIsNotExamined : Prop :=
  ∀ (s : State) (len : Byte) (rest : List Byte), rest.length = len.toNat - 1 → s.ph = .rfSync →
    ∃ t u, exec (.frameReq len rest) s = .next t ∧ exec (.frameRes len rest) s = .next u ∧
      u = { t with mem := u.mem, acc := u.acc, status := u.status, diagCsum := u.diagCsum } ∧
      (∀ f, f ≠ .cse → u.flag f = t.flag f) ∧
      ∀ a, a ≠ 0x200 → Memory.read u.mem a = Memory.read t.mem a

/-- Going over a whole frame is the engine's single steps one after the other: in TX from index TXI to the last byte,
in RF_SYNC over a frame that stands whole at the head of the queue. That there is such a move is the model's choice
(log 9). -/
def Obligations.FrameMoveIsEngineSteps : Prop :=
  (∀ (s : State) (F : List Byte), s.ph = .tx → s.txFrame = some F → s.txi.toNat < F.length →
    runMove .frame s = engineSteps (F.length - s.txi.toNat) s) ∧
  (∀ (s : State) (i : Instr) (tail : List Byte) (len : Byte), s.ph = .rfSync → decode .wire s.rxq = .ok (i, tail) →
    s.rxq[1]? = some len →
    runMove .frame s =
      engineSteps (len.toNat + 3 + if s.flag .trn = false ∨ s.cfg.getLsbD 5 = true then 1 else 0) s)

/-- A frame the encoder made, standing at the head of the queue when `readFrame` begins, is read back: its payload is
returned, trusted, one acknowledgment goes out, and what follows it stays queued. It is said of the move over a whole
frame, which is the model's choice (log 9); of the sequences R184 (f) speaks of it covers those with no byte before the
frame. -/
def Obligations.EncodedFrameIsReadBack : Prop :=
  ∀ (s : State) (payload F q : List Byte), encodeFrame payload = some F → s.ph = .rfSync → s.rxq = F ++ q →
    s.flag .cse = false → s.flag .trn = false → s.flag .sht = false →
    ∃ t, runMove .frame s = .next t ∧ t.readResult = some payload ∧ t.pay = payload ∧ t.goodFrame = true ∧
      t.rxDir = some 0x00#8 ∧ t.rxq = q ∧ t.txLog = s.txLog ++ [0x06#8] ∧ t.ph = .finish

/-- exec refuses every wire row by name in a phase that does not take it. The refusal is the model's choice (log 14,
DESIGN CHOICE): the spec gives no rule for a row outside its phase, it says only that what a byte means depends on the
phase that removes it from the queue (30_encoding.md, section 2), and the step function never asks exec for such a row. -/
def Obligations.WireRowsNeedTheirPhase : Prop :=
  ∀ s : State,
    (s.ph ≠ .rfSync → exec .sof s = .refused (.outOfContext "SOF") ∧
      (∀ b, exec (.syncSkip b) s = .refused (.outOfContext "SYNC.SKIP")) ∧
      (∀ len rest, exec (.frameRes len rest) s = .refused (.outOfContext "FRAME.RES")) ∧
      (s.ph ≠ .tx → ∀ len rest, exec (.frameReq len rest) s = .refused (.outOfContext "FRAME.REQ"))) ∧
    (s.ph ≠ .hsWait → exec .ack s = .refused (.outOfContext "ACK") ∧ exec .nak s = .refused (.outOfContext "NAK") ∧
      exec .can s = .refused (.outOfContext "CAN") ∧
      (∀ b, exec (.hsOther b) s = .refused (.outOfContext "HS.OTHER")))

/-! The environment's steps and the timer (41_link_primitives.md). -/

/-- `Deliver(b)`: appended at the tail, or lost with FOV when the queue is at its capacity; no other state changes
(R157). -/
def Obligations.DeliverAppendsOrOverflows : Prop :=
  ∀ (s : State) (b : Byte),
    (Config.rxFifoDepthPred = none → runMove (.deliver b) s = .next { s with rxq := s.rxq ++ [b] }) ∧
    (∀ d, Config.rxFifoDepthPred = some d →
      (s.rxq.length < d + 1 → runMove (.deliver b) s = .next { s with rxq := s.rxq ++ [b] }) ∧
      (¬ s.rxq.length < d + 1 → runMove (.deliver b) s = .next { s with status := s.status ||| 0x4000#16 }))

/-- Which of the engine's step and `Expire` is enabled (R158, R159); and that a move which is not enabled changes nothing,
which is the model's choice (log 3). -/
def Obligations.OneOfEngineAndTimeIsEnabled : Prop :=
  ∀ s : State,
    (s.waiting = true → s.ph ≠ .canGap →
      (s.engineEnabled = true ↔ s.rxq ≠ []) ∧ (s.expireEnabled = true ↔ s.rxq = [])) ∧
    (s.ph = .canGap → s.engineEnabled = false ∧ s.expireEnabled = true) ∧
    (s.ph = .idle → s.engineEnabled = false ∧ s.expireEnabled = false) ∧
    (s.waiting = false → s.ph ≠ .idle → s.engineEnabled = true ∧ s.expireEnabled = false) ∧
    (s.engineEnabled = false → runMove .engine s = .next s) ∧
    (s.expireEnabled = false → runMove .expire s = .next s)

/-- A wait starts afresh, with the full count of its register and no expiries, whenever its phase is entered or a byte
is taken (R172, R272, R152). When the hardware loads its timer within the step is the model's reading (log 4). -/
def Obligations.WaitStartsAfresh : Prop :=
  ∀ (m : Move) (s t : State), runMove m s = .next t → t.ph ≠ s.ph ∨ t.rxq.length < s.rxq.length →
    (t.ph = .hsWait → t.tmr = s.tHs) ∧
    (t.ph = .probeGap → t.tmr = s.tPgap) ∧
    (t.ph = .canGap → t.tmr = s.tDgap) ∧
    (t.ph = .rfSync → t.tmr = s.timeout) ∧
    (t.ph = .rfLen → t.tmr = s.tByte ∧ t.brc = 0#8) ∧
    (t.ph = .rfBody → t.tmr = s.tByte ∧ t.brc = 0#8)

/-- The timed form is within the untimed one: a clock edge is the engine's step, an `Expire`, or nothing; a queued byte
wins over an expiry; a timer at 0 ends the wait at once; a tick counts the timer of a wait down and not below 0
(R151, R155, R156, R138 f). That a clock edge and a tick are moves of their own is the model's choice (log 4). -/
def Obligations.ClockEdgeRefinesUntimed : Prop :=
  ∀ s : State,
    (runMove .clk s = runMove .engine s ∨ (s.expireEnabled = true ∧ runMove .clk s = runMove .expire s) ∨
      runMove .clk s = .next s) ∧
    (s.engineEnabled = true → runMove .clk s = runMove .engine s) ∧
    (s.expireEnabled = true → s.tmr = 0#16 → runMove .clk s = runMove .expire s) ∧
    (s.expireEnabled = true → s.tmr ≠ 0#16 → runMove .clk s = .next s) ∧
    (s.waiting = true → s.tmr ≠ 0#16 → runMove .tick s = .next { s with tmr := s.tmr - 1#16 }) ∧
    (s.waiting = false ∨ s.tmr = 0#16 → runMove .tick s = .next s)

/-! The host's accesses and reset. -/

/-- Host writes while idle: each register stores its value by its field rules, a write to a read-only register or an
unpopulated index does nothing, and none touches STATUS (R249). -/
def Obligations.HostWritesStore : Prop :=
  ∀ (s : State) (data : Word16), s.flag .busy = false →
    (∃ c, runMove (.hostWrite 0x002#10 data) s = .next { s with cfg := c } ∧ c.toNat < 64 ∧
      c.getLsbD 4 = data.getLsbD 4 ∧ c.getLsbD 5 = data.getLsbD 5 ∧
      c.toNat % 16 = if data.toNat % 16 = 0 then s.cfg.toNat % 16 else data.toNat % 16) ∧
    runMove (.hostWrite 0x003#10 data) s = .next { s with timeout := data } ∧
    runMove (.hostWrite 0x004#10 data) s = .next { s with tHs := data } ∧
    runMove (.hostWrite 0x005#10 data) s = .next { s with tByte := data } ∧
    runMove (.hostWrite 0x006#10 data) s = .next { s with tPgap := data } ∧
    runMove (.hostWrite 0x007#10 data) s = .next { s with tDgap := data } ∧
    runMove (.hostWrite 0x008#10 data) s =
      .next { s with brb := if data.setWidth 8 = 0#8 then s.brb else data.setWidth 8 } ∧
    runMove (.hostWrite 0x009#10 data) s = .next { s with txLen := data.setWidth 8 } ∧
    runMove (.hostWrite 0x015#10 data) s =
      .next { s with diagDesync := 0#8, diagRetry := 0#8, diagCsum := 0#8, diagCan := 0#8, diagOther := 0#8 } ∧
    (∀ i, i < 253 → ∃ t, runMove (.hostWrite (BitVec.ofNat 10 (0x100 + i)) data) s = .next t ∧
      t = { s with mem := t.mem } ∧
      ∀ a, Memory.read t.mem a = if a = 0x100 + i then some (data.setWidth 8) else Memory.read s.mem a) ∧
    (∀ idx : RegIndex, idx.toNat = 1 ∨ (10 ≤ idx.toNat ∧ idx.toNat < 0x100 ∧ idx.toNat ≠ 0x015) ∨ 0x1FD ≤ idx.toNat →
      runMove (.hostWrite idx data) s = .next s)

/-- Host reads: the value stands on h_rdata and nothing else changes; each register gives its value with its upper bits
zero, a write-only register and an unpopulated index give 0 (R21, R251). The port's value is kept in a field of the
model's own (log 2); of the bytes the spec leaves unspecified (log 8) nothing is said. -/
def Obligations.HostReadsRegisters : Prop :=
  ∀ s : State,
    (∀ idx, runMove (.hostRead idx) s = .next { s with hRdata := s.readReg idx }) ∧
    s.readReg 0x000#10 = 0#16 ∧
    s.readReg 0x001#10 = s.status &&& 0x7FFF#16 ∧
    (s.readReg 0x002#10).toNat = s.cfg.toNat % 64 ∧
    s.readReg 0x003#10 = s.timeout ∧ s.readReg 0x004#10 = s.tHs ∧ s.readReg 0x005#10 = s.tByte ∧
    s.readReg 0x006#10 = s.tPgap ∧ s.readReg 0x007#10 = s.tDgap ∧
    (s.readReg 0x008#10).toNat = s.brb.toNat ∧ (s.readReg 0x009#10).toNat = s.txLen.toNat ∧
    (s.readReg 0x00A#10).toNat = s.rxLen.toNat ∧ (s.readReg 0x00B#10).toNat = s.rxCnt.toNat ∧
    (s.readReg 0x00C#10).toNat = s.att.toNat ∧ (s.readReg 0x00D#10).toNat = s.ph.code ∧
    (s.readReg 0x010#10).toNat = s.diagDesync.toNat ∧ (s.readReg 0x011#10).toNat = s.diagRetry.toNat ∧
    (s.readReg 0x012#10).toNat = s.diagCsum.toNat ∧ (s.readReg 0x013#10).toNat = s.diagCan.toNat ∧
    (s.readReg 0x014#10).toNat = s.diagOther.toNat ∧ s.readReg 0x015#10 = 0#16 ∧
    (∀ i b, i < 253 → Memory.read s.mem (0x100 + i) = some b →
      (s.readReg (BitVec.ofNat 10 (0x100 + i))).toNat = b.toNat) ∧
    (∀ i b, i < 255 → i < s.rxCnt.toNat → Memory.read s.mem (0x200 + i) = some b →
      (s.readReg (BitVec.ofNat 10 (0x200 + i))).toNat = b.toNat) ∧
    (∀ idx : RegIndex,
      idx.toNat = 0x00E ∨ idx.toNat = 0x00F ∨ (0x016 ≤ idx.toNat ∧ idx.toNat < 0x100) ∨
        (0x1FD ≤ idx.toNat ∧ idx.toNat < 0x200) ∨ 0x2FF ≤ idx.toNat →
      s.readReg idx = 0#16)

/-- Reset, at any moment: every register takes its reset value, the queue is empty, the buffers hold nothing known, and
only what the other agents will do next and the model's own counters stay, which is the model's choice (log 2)
(R35, R290, R291). -/
def Obligations.ResetValues : Prop :=
  ∀ s : State, ∃ t, runMove .rst s = .next t ∧
    t.ph = .idle ∧ t.status = 0x0000#16 ∧ t.cfg = 0x34#8 ∧ t.timeout = 5000#16 ∧ t.tHs = 500#16 ∧ t.tByte = 100#16 ∧
    t.tPgap = 10#16 ∧ t.tDgap = 100#16 ∧ t.brb = 1#8 ∧ t.txLen = 0#8 ∧ t.rxLen = 0#8 ∧ t.rxCnt = 0#8 ∧ t.att = 0#8 ∧
    t.diagDesync = 0#8 ∧ t.diagRetry = 0#8 ∧ t.diagCsum = 0#8 ∧ t.diagCan = 0#8 ∧ t.diagOther = 0#8 ∧ t.op = 0#2 ∧
    t.txi = 0#9 ∧ t.prb = 0#6 ∧ t.brc = 0#8 ∧ t.acc = 0#8 ∧ t.tmr = 0#16 ∧ t.rxq = [] ∧ t.txValidPort = false ∧
    t.donePort = false ∧ (∀ a, Memory.read t.mem a = none) ∧
    t = { State.reset with script := s.script, now := s.now, epoch := s.epoch }

/-! The Frame Codec (40_codec.md). -/

/-- The laws of CSUM: appending, concatenation, its own checksum, order, one altered byte, several altered bytes
(R131). -/
def Obligations.CsumLaws : Prop :=
  (∀ (s : List Byte) (b : Byte), csum (s ++ [b]) = csum s ^^^ b) ∧
  (∀ s t : List Byte, csum (s ++ t) = csum s ^^^ csum t ^^^ 0xFF#8) ∧
  (∀ s : List Byte, csum (s ++ [csum s]) = 0x00#8) ∧
  (∀ s t : List Byte, s.Perm t → csum s = csum t) ∧
  (∀ (s : List Byte) (i : Nat) (m : Byte) (h : i < s.length), csum (s.set i (s[i] ^^^ m)) = csum s ^^^ m) ∧
  (∀ s ms : List Byte, ms.length = s.length →
    csum (List.zipWith (fun b m => b ^^^ m) s ms) = csum s ^^^ ms.foldl (fun x m => x ^^^ m) 0x00#8)

/-- The shape of ENCODE(P) for a payload of at most 253 bytes, its checksum, that it is injective, and that it is not
defined for a longer payload (R133, R132). -/
def Obligations.EncodeShape : Prop :=
  (∀ P : List Byte, P.length ≤ 253 → ∃ F, encodeFrame P = some F ∧
    F.length = P.length + 4 ∧
    F[0]? = some 0x01#8 ∧
    (F[1]?).map BitVec.toNat = some (P.length + 2) ∧
    F[2]? = some 0x00#8 ∧
    (F.drop 3).take P.length = P ∧
    F.getLast? = some (csum ((F.drop 1).take (P.length + 2))) ∧
    csum (F.drop 1) = 0x00#8) ∧
  (∀ P Q F : List Byte, encodeFrame P = some F → encodeFrame Q = some F → P = Q) ∧
  (∀ P : List Byte, encodeFrame P = none ↔ 253 < P.length)

/-- Round trip: DECODE of what ENCODE made gives the payload back, with a good verdict and direction 0x00 (R137). -/
def Obligations.CodecRoundTrip : Prop :=
  ∀ P : List Byte, P.length ≤ 253 → ∃ F L body, encodeFrame P = some F ∧ F = 0x01#8 :: L :: body ∧
    decodeBody L body = (true, some 0x00#8, P)

/-- VERIFY is the recomputed checksum against the received one; altered body bytes of a good frame pass exactly when
their masks cancel, so one altered byte never passes, and a reordered body passes (R135, C4). -/
def Obligations.VerifyDetectsMasks : Prop :=
  (∀ (L d c : Byte) (P : List Byte), (verify L (d :: P ++ [c])).1 = csum (L :: d :: P) ^^^ c) ∧
  (∀ (L : Byte) (body ms : List Byte), ms.length = body.length → (verify L body).2 = true →
    ((verify L (List.zipWith (fun b m => b ^^^ m) body ms)).2 = true ↔ ms.foldl (fun x m => x ^^^ m) 0x00#8 = 0x00#8)) ∧
  (∀ (L m : Byte) (body : List Byte) (i : Nat) (h : i < body.length), m ≠ 0x00#8 → (verify L body).2 = true →
    (verify L (body.set i (body[i] ^^^ m))).2 = false) ∧
  (∀ (L : Byte) (body body' : List Byte), body.Perm body' → (verify L body').2 = (verify L body).2)

/-- The frame ENCODE makes is the row FRAME.REQ of the table, and encodes back to the same bytes. -/
def Obligations.EncodedFrameIsFrameReq : Prop :=
  ∀ P F tail : List Byte, encodeFrame P = some F →
    ∃ len rest, decode .wire (F ++ tail) = .ok (.frameReq len rest, tail) ∧ len.toNat = P.length + 2 ∧
      rest.dropLast = P ∧ (Instr.frameReq len rest).wellFormed = true ∧ encode (.frameReq len rest) = F

/-! Encoding of the instructions. -/

/-- Decoding the bytes of any well-formed instruction in a context that reads it gives the instruction back, every
operand at every value, and leaves the bytes after it (R97, R111). -/
def Obligations.DecodeOfEncode : Prop :=
  ∀ (i : Instr) (c : Context) (tail : List Byte), i.wellFormed = true → i.inContext c = true →
    decode c (encode i ++ tail) = .ok (i, tail)

/-- What decodes is a well-formed instruction of that context, and the bytes read are its encoding (R97, R111). -/
def Obligations.EncodeOfDecode : Prop :=
  ∀ (c : Context) (bytes tail : List Byte) (i : Instr), decode c bytes = .ok (i, tail) →
    i.wellFormed = true ∧ i.inContext c = true ∧ encode i ++ tail = bytes

/-- Words written out from the encodings of the spec decode to the rows they stand for (R96, R97, R110, R111). -/
def Obligations.SpecWordsDecode : Prop :=
  decode (.byte .sync) [0b00000001#8] = .ok (.sof, []) ∧
  decode (.byte .sync) [0b00000110#8] = .ok (.syncSkip 0x06#8, []) ∧
  decode (.byte (.handshake true)) [0b00000110#8] = .ok (.ack, []) ∧
  decode (.byte (.handshake true)) [0b00010101#8] = .ok (.nak, []) ∧
  decode (.byte (.handshake true)) [0b00011000#8] = .ok (.can, []) ∧
  decode (.byte (.handshake false)) [0b00011000#8] = .ok (.hsOther 0x18#8, []) ∧
  decode (.byte (.handshake true)) [0b00000001#8] = .ok (.hsOther 0x01#8, []) ∧
  decode (.byte .command) [0b00000001#8] = .ok (.recv, []) ∧
  decode (.byte .command) [0b00000011#8] = .ok (.sendr, []) ∧
  decode (.byte .command) [0b00000111#8] = .ok (.cmdIllegal 0x07#8, []) ∧
  decode .wire [0x01#8, 0x03#8, 0x00#8, 0x15#8, 0xE9#8] = .ok (.frameReq 0x03#8 [0x15#8, 0xE9#8], []) ∧
  decode .wire [0x01#8, 0x03#8, 0x01#8, 0x15#8, 0xE8#8] = .ok (.frameRes 0x03#8 [0x15#8, 0xE8#8], [])

/-! The machine. -/

/-- A step runs the next move, and where that move takes a byte, a write to CMD or a frame that decodes, the step is
exec of the decoded instruction in the state whose bytes have been removed and whose script has moved on. The script
and the counters are the model's own (log 1, log 2), as is the move over a whole frame (log 9). -/
def Obligations.StepRunsTheDecodedInstruction : Prop :=
  (∀ s : State, s.script = [] → step s = runMove (Config.freeMove s.now) (s.advance (Config.freeMove s.now))) ∧
  (∀ (s : State) (m : Move) (ms : List Move), s.script = m :: ms →
    step s = runMove m (s.advance m) ∧
    s.advance m = { s with script := ms, now := s.now + 1,
                           epoch := match m with
                             | .hostRead _ => s.epoch
                             | _ => s.epoch + 1 }) ∧
  (∀ (s : State) (ms : List Move) (i : Instr) (q : List Byte), s.script = .engine :: ms → s.ph = .rfSync →
    decode (.byte .sync) s.rxq = .ok (i, q) →
    step s = exec i { s with rxq := q, script := ms, now := s.now + 1, epoch := s.epoch + 1 }) ∧
  (∀ (s : State) (ms : List Move) (i : Instr) (q : List Byte), s.script = .engine :: ms → s.ph = .hsWait →
    decode (.byte (.handshake (s.cfg.getLsbD 4))) s.rxq = .ok (i, q) →
    step s = exec i { s with rxq := q, script := ms, now := s.now + 1, epoch := s.epoch + 1 }) ∧
  (∀ (s : State) (ms : List Move) (i : Instr) (data : Word16), s.script = .hostWrite 0x000#10 data :: ms →
    decode (.byte .command) [data.setWidth 8] = .ok (i, []) →
    step s = exec i { s with script := ms, now := s.now + 1, epoch := s.epoch + 1 }) ∧
  (∀ (s : State) (ms : List Move) (i : Instr) (tail : List Byte) (len : Byte), s.script = .frame :: ms →
    s.ph = .rfSync → decode .wire s.rxq = .ok (i, tail) → s.rxq[1]? = some len →
    step s = exec i { s with rxq := s.rxq.drop (len.toNat + 2), script := ms, now := s.now + 1,
                             epoch := s.epoch + 1 }) ∧
  (∀ (s : State) (ms : List Move) (i : Instr) (F : List Byte), s.script = .frame :: ms → s.ph = .tx →
    (s.advance .frame).txFrame = some F → decode .wire F = .ok (i, []) →
    step s = exec i { s with script := ms, now := s.now + 1, epoch := s.epoch + 1 })

/-- The invariant of the machine holds at reset. -/
def Obligations.InvAtReset : Prop := Inv State.reset

/-- Every step keeps the invariant of the machine: canonical memory, reserved bits, the ranges of every counter, PH
IDLE exactly when BUSY is 0, no more transmissions than CFG.RETRY. -/
def Obligations.StepKeepsInv : Prop :=
  ∀ s t : State, Inv s → step s = .next t → Inv t

/-- Nothing traps and nothing is stuck: from a state that meets the invariant every step answers a next state, but for
a SEND or SENDR over payload bytes never written, which the model refuses (R266, R27). -/
def Obligations.NothingTraps : Prop :=
  ∀ s : State, Inv s →
    (∃ t, step s = .next t) ∨
    (step s = .refused .txBufUnwritten ∧ s.flag .busy = false ∧ s.payloadWritten = false ∧
      ∃ data : Word16, s.nextMove = .hostWrite 0x000#10 data ∧ 2 ≤ data.toNat % 256 ∧ data.toNat % 256 ≤ 3)

/-- The invariant of the receive result holds at reset. -/
def Obligations.ReadInvAtReset : Prop := ReadInv State.reset

/-- Every step keeps the invariant of the receive result; so whenever RXF is set, CSE is set exactly when VERIFY fails
on the bytes in RX_BUF, SHT exactly when the length byte is below 2, and a frame without TRN is complete. -/
def Obligations.StepKeepsReadInv : Prop :=
  ∀ s t : State, Inv s → ReadInv s → step s = .next t → ReadInv t

/-- Which receive flags can stand together: TRN with SHT implies CSE; SHT with RX_LEN = 0 implies CSE; SHT without CSE
means RX_LEN = 1 and the one body byte was 0xFE; RXF excludes TMO and LST, which exclude each other (R268, second
half). -/
def Obligations.ReceiveFlagCombinations : Prop :=
  ∀ s : State, Inv s → ReadInv s →
    (s.flag .rxf = true →
      (s.flag .trn = true → s.flag .sht = true → s.flag .cse = true) ∧
      (s.flag .sht = true → s.rxLen = 0#8 → s.flag .cse = true) ∧
      (s.flag .sht = true → s.flag .cse = false → s.rxLen = 1#8 ∧ s.rxBody = [0xFE#8]) ∧
      s.flag .tmo = false ∧ s.flag .lst = false) ∧
    ¬(s.flag .tmo = true ∧ s.flag .lst = true)

/-- What is ever transmitted: single bytes 0x06 in the four phases that send one, and frames, each byte in its place;
a transmission once begun runs to its last byte unless reset cuts it (R98). The cases for the move `frame` are the
model's own (log 9). -/
def Obligations.OnlyAcksAndFramesAreSent : Prop :=
  ∀ (m : Move) (s t : State), Inv s → runMove m s = .next t → m ≠ .rst →
    ∃ out, t.txLog = s.txLog ++ out ∧
      (out = [] ∨
       (out = [0x06#8] ∧
        (s.ph = .preChk ∨ s.ph = .probeTx ∨ s.ph = .canAck ∨ s.ph = .rfAck ∨ (m = .frame ∧ s.ph = .rfSync))) ∨
       (s.ph = .tx ∧ ∃ F, s.txFrame = some F ∧ F[2]? = some 0x00#8 ∧
        (out = (F.drop s.txi.toNat).take 1 ∨ (m = .frame ∧ out = F.drop s.txi.toNat)))) ∧
      (s.ph = .tx → ∃ F, s.txFrame = some F ∧
        ((t.ph = .tx ∧ t.txi.toNat = s.txi.toNat + out.length) ∨
         (t.ph = .hsWait ∧ s.txi.toNat + out.length = F.length)))

/-- The flags of STATUS are sticky: apart from BUSY falling at FINISH, a set flag stays set until the next accepted
command or reset (R267). -/
def Obligations.FlagsAreSticky : Prop :=
  ∀ (m : Move) (s t : State) (f : Flag), runMove m s = .next t → f ≠ .busy → s.flag f = true →
    t.flag f = true ∨ m = .rst ∨ (s.flag .busy = false ∧ t.flag .busy = true)

/-- The diagnostic counters never go down but by reset or a write to DIAG_CLR while idle, and the step counts at most
one of each kind but for DIAG_CLR (R32). -/
def Obligations.CountersOnlyRise : Prop :=
  ∀ (m : Move) (s t : State), runMove m s = .next t → m ≠ .rst →
    (∀ data, ¬(m = .hostWrite 0x015#10 data ∧ s.flag .busy = false)) →
    (s.diagDesync.toNat ≤ t.diagDesync.toNat ∧ t.diagDesync.toNat ≤ s.diagDesync.toNat + 1) ∧
    (s.diagRetry.toNat ≤ t.diagRetry.toNat ∧ t.diagRetry.toNat ≤ s.diagRetry.toNat + 1) ∧
    (s.diagCsum.toNat ≤ t.diagCsum.toNat ∧ t.diagCsum.toNat ≤ s.diagCsum.toNat + 1) ∧
    (s.diagCan.toNat ≤ t.diagCan.toNat ∧ t.diagCan.toNat ≤ s.diagCan.toNat + 1) ∧
    (s.diagOther.toNat ≤ t.diagOther.toNat ∧ t.diagOther.toNat ≤ s.diagOther.toNat + 1)

/-- TXC rises only when the engine takes the byte 0x06 from the head of the queue in the handshake wait (R206). -/
def Obligations.OnlyAckConfirms : Prop :=
  ∀ (m : Move) (s t : State), runMove m s = .next t → s.flag .txc = false → t.flag .txc = true →
    s.ph = .hsWait ∧ s.rxq.head? = some 0x06#8 ∧ t.rxq = s.rxq.tail ∧ (m = .engine ∨ m = .clk)

/-- While a command runs, nothing but reset changes the configuration, TX_LEN or TX_BUF: every attempt of one command
transmits the same bytes (R71). -/
def Obligations.PayloadIsStableWhileBusy : Prop :=
  ∀ (m : Move) (s t : State), s.flag .busy = true → runMove m s = .next t → m ≠ .rst →
    t.cfg = s.cfg ∧ t.timeout = s.timeout ∧ t.tHs = s.tHs ∧ t.tByte = s.tByte ∧ t.tPgap = s.tPgap ∧
    t.tDgap = s.tDgap ∧ t.brb = s.brb ∧ t.txLen = s.txLen ∧
    (∀ a, 0x100 ≤ a → a < 0x1FD → Memory.read t.mem a = Memory.read s.mem a)

/-- Only the LINK adds to the queue, at its tail; every other agent leaves it or takes from its head; the host's reads
and writes and TIME never touch it (R31, R158). -/
def Obligations.OnlyLinkFillsTheQueue : Prop :=
  ∀ (m : Move) (s t : State), runMove m s = .next t →
    ((∀ b, m ≠ .deliver b) → ∃ k, t.rxq = s.rxq.drop k) ∧
    ((∃ i d, m = .hostWrite i d) ∨ (∃ i, m = .hostRead i) ∨ m = .expire ∨ m = .tick → t.rxq = s.rxq)

/-- The send phases end: under the invariant each engine step and each `Expire` that is enabled lowers a bound, no
other agent's step but reset raises it, and at PRE_CHK the bound is that of R220 (g). -/
def Obligations.SendPhasesAreBounded : Prop :=
  (∀ (m : Move) (s t : State), Inv s → sendPhase s.ph = true → runMove m s = .next t →
    ((m = .engine ∧ s.engineEnabled = true) ∨ (m = .expire ∧ s.expireEnabled = true) → sendFuel t < sendFuel s) ∧
    (m ≠ .rst → sendFuel t ≤ sendFuel s)) ∧
  (∀ s : State, Inv s → s.ph = .preChk →
    sendFuel s = 3 + (s.cfg.toNat % 16) * (s.txLen.toNat + 4 + 1 + 64 + 1))

/-- Once `readFrame` has its start marker it ends: under the invariant each engine step and each `Expire` that is
enabled in RF_LEN to FINISH lowers a bound, and no other agent's step but reset raises it (R310). -/
def Obligations.ReadAfterMarkerIsBounded : Prop :=
  ∀ (m : Move) (s t : State), Inv s →
    s.ph = .rfLen ∨ s.ph = .rfBody ∨ s.ph = .rfCheck ∨ s.ph = .rfAck ∨ s.ph = .finish → runMove m s = .next t →
    ((m = .engine ∧ s.engineEnabled = true) ∨ (m = .expire ∧ s.expireEnabled = true) → readFuel t < readFuel s) ∧
    (m ≠ .rst → readFuel t ≤ readFuel s)
end

