-- ==== Sys2Proof/Laws/State.lean ====
section
/-!
SUPPORT. What each named update of the state does to each field: one lemma per field per update, true by unfolding,
so that no later proof unfolds a record update.
-/

namespace Sys2Proof.Machine

@[simp] theorem State.setFlag_status (s : State) (f : Flag) : (s.setFlag f).status = s.status ||| f.mask := rfl
@[simp] theorem State.setFlag_cfg (s : State) (f : Flag) : (s.setFlag f).cfg = s.cfg := rfl
@[simp] theorem State.setFlag_timeout (s : State) (f : Flag) : (s.setFlag f).timeout = s.timeout := rfl
@[simp] theorem State.setFlag_tHs (s : State) (f : Flag) : (s.setFlag f).tHs = s.tHs := rfl
@[simp] theorem State.setFlag_tByte (s : State) (f : Flag) : (s.setFlag f).tByte = s.tByte := rfl
@[simp] theorem State.setFlag_tPgap (s : State) (f : Flag) : (s.setFlag f).tPgap = s.tPgap := rfl
@[simp] theorem State.setFlag_tDgap (s : State) (f : Flag) : (s.setFlag f).tDgap = s.tDgap := rfl
@[simp] theorem State.setFlag_brb (s : State) (f : Flag) : (s.setFlag f).brb = s.brb := rfl
@[simp] theorem State.setFlag_txLen (s : State) (f : Flag) : (s.setFlag f).txLen = s.txLen := rfl
@[simp] theorem State.setFlag_rxLen (s : State) (f : Flag) : (s.setFlag f).rxLen = s.rxLen := rfl
@[simp] theorem State.setFlag_rxCnt (s : State) (f : Flag) : (s.setFlag f).rxCnt = s.rxCnt := rfl
@[simp] theorem State.setFlag_att (s : State) (f : Flag) : (s.setFlag f).att = s.att := rfl
@[simp] theorem State.setFlag_diagDesync (s : State) (f : Flag) : (s.setFlag f).diagDesync = s.diagDesync := rfl
@[simp] theorem State.setFlag_diagRetry (s : State) (f : Flag) : (s.setFlag f).diagRetry = s.diagRetry := rfl
@[simp] theorem State.setFlag_diagCsum (s : State) (f : Flag) : (s.setFlag f).diagCsum = s.diagCsum := rfl
@[simp] theorem State.setFlag_diagCan (s : State) (f : Flag) : (s.setFlag f).diagCan = s.diagCan := rfl
@[simp] theorem State.setFlag_diagOther (s : State) (f : Flag) : (s.setFlag f).diagOther = s.diagOther := rfl
@[simp] theorem State.setFlag_mem (s : State) (f : Flag) : (s.setFlag f).mem = s.mem := rfl
@[simp] theorem State.setFlag_ph (s : State) (f : Flag) : (s.setFlag f).ph = s.ph := rfl
@[simp] theorem State.setFlag_op (s : State) (f : Flag) : (s.setFlag f).op = s.op := rfl
@[simp] theorem State.setFlag_txi (s : State) (f : Flag) : (s.setFlag f).txi = s.txi := rfl
@[simp] theorem State.setFlag_prb (s : State) (f : Flag) : (s.setFlag f).prb = s.prb := rfl
@[simp] theorem State.setFlag_brc (s : State) (f : Flag) : (s.setFlag f).brc = s.brc := rfl
@[simp] theorem State.setFlag_acc (s : State) (f : Flag) : (s.setFlag f).acc = s.acc := rfl
@[simp] theorem State.setFlag_tmr (s : State) (f : Flag) : (s.setFlag f).tmr = s.tmr := rfl
@[simp] theorem State.setFlag_rxq (s : State) (f : Flag) : (s.setFlag f).rxq = s.rxq := rfl
@[simp] theorem State.setFlag_txLog (s : State) (f : Flag) : (s.setFlag f).txLog = s.txLog := rfl
@[simp] theorem State.setFlag_hRdata (s : State) (f : Flag) : (s.setFlag f).hRdata = s.hRdata := rfl
@[simp] theorem State.setFlag_script (s : State) (f : Flag) : (s.setFlag f).script = s.script := rfl
@[simp] theorem State.setFlag_now (s : State) (f : Flag) : (s.setFlag f).now = s.now := rfl
@[simp] theorem State.setFlag_epoch (s : State) (f : Flag) : (s.setFlag f).epoch = s.epoch := rfl

@[simp] theorem State.setFlagIf_status (s : State) (f : Flag) (c : Bool) : (s.setFlagIf f c).status = if c then s.status ||| f.mask else s.status := rfl
@[simp] theorem State.setFlagIf_cfg (s : State) (f : Flag) (c : Bool) : (s.setFlagIf f c).cfg = s.cfg := rfl
@[simp] theorem State.setFlagIf_timeout (s : State) (f : Flag) (c : Bool) : (s.setFlagIf f c).timeout = s.timeout := rfl
@[simp] theorem State.setFlagIf_tHs (s : State) (f : Flag) (c : Bool) : (s.setFlagIf f c).tHs = s.tHs := rfl
@[simp] theorem State.setFlagIf_tByte (s : State) (f : Flag) (c : Bool) : (s.setFlagIf f c).tByte = s.tByte := rfl
@[simp] theorem State.setFlagIf_tPgap (s : State) (f : Flag) (c : Bool) : (s.setFlagIf f c).tPgap = s.tPgap := rfl
@[simp] theorem State.setFlagIf_tDgap (s : State) (f : Flag) (c : Bool) : (s.setFlagIf f c).tDgap = s.tDgap := rfl
@[simp] theorem State.setFlagIf_brb (s : State) (f : Flag) (c : Bool) : (s.setFlagIf f c).brb = s.brb := rfl
@[simp] theorem State.setFlagIf_txLen (s : State) (f : Flag) (c : Bool) : (s.setFlagIf f c).txLen = s.txLen := rfl
@[simp] theorem State.setFlagIf_rxLen (s : State) (f : Flag) (c : Bool) : (s.setFlagIf f c).rxLen = s.rxLen := rfl
@[simp] theorem State.setFlagIf_rxCnt (s : State) (f : Flag) (c : Bool) : (s.setFlagIf f c).rxCnt = s.rxCnt := rfl
@[simp] theorem State.setFlagIf_att (s : State) (f : Flag) (c : Bool) : (s.setFlagIf f c).att = s.att := rfl
@[simp] theorem State.setFlagIf_diagDesync (s : State) (f : Flag) (c : Bool) : (s.setFlagIf f c).diagDesync = s.diagDesync := rfl
@[simp] theorem State.setFlagIf_diagRetry (s : State) (f : Flag) (c : Bool) : (s.setFlagIf f c).diagRetry = s.diagRetry := rfl
@[simp] theorem State.setFlagIf_diagCsum (s : State) (f : Flag) (c : Bool) : (s.setFlagIf f c).diagCsum = s.diagCsum := rfl
@[simp] theorem State.setFlagIf_diagCan (s : State) (f : Flag) (c : Bool) : (s.setFlagIf f c).diagCan = s.diagCan := rfl
@[simp] theorem State.setFlagIf_diagOther (s : State) (f : Flag) (c : Bool) : (s.setFlagIf f c).diagOther = s.diagOther := rfl
@[simp] theorem State.setFlagIf_mem (s : State) (f : Flag) (c : Bool) : (s.setFlagIf f c).mem = s.mem := rfl
@[simp] theorem State.setFlagIf_ph (s : State) (f : Flag) (c : Bool) : (s.setFlagIf f c).ph = s.ph := rfl
@[simp] theorem State.setFlagIf_op (s : State) (f : Flag) (c : Bool) : (s.setFlagIf f c).op = s.op := rfl
@[simp] theorem State.setFlagIf_txi (s : State) (f : Flag) (c : Bool) : (s.setFlagIf f c).txi = s.txi := rfl
@[simp] theorem State.setFlagIf_prb (s : State) (f : Flag) (c : Bool) : (s.setFlagIf f c).prb = s.prb := rfl
@[simp] theorem State.setFlagIf_brc (s : State) (f : Flag) (c : Bool) : (s.setFlagIf f c).brc = s.brc := rfl
@[simp] theorem State.setFlagIf_acc (s : State) (f : Flag) (c : Bool) : (s.setFlagIf f c).acc = s.acc := rfl
@[simp] theorem State.setFlagIf_tmr (s : State) (f : Flag) (c : Bool) : (s.setFlagIf f c).tmr = s.tmr := rfl
@[simp] theorem State.setFlagIf_rxq (s : State) (f : Flag) (c : Bool) : (s.setFlagIf f c).rxq = s.rxq := rfl
@[simp] theorem State.setFlagIf_txLog (s : State) (f : Flag) (c : Bool) : (s.setFlagIf f c).txLog = s.txLog := rfl
@[simp] theorem State.setFlagIf_hRdata (s : State) (f : Flag) (c : Bool) : (s.setFlagIf f c).hRdata = s.hRdata := rfl
@[simp] theorem State.setFlagIf_script (s : State) (f : Flag) (c : Bool) : (s.setFlagIf f c).script = s.script := rfl
@[simp] theorem State.setFlagIf_now (s : State) (f : Flag) (c : Bool) : (s.setFlagIf f c).now = s.now := rfl
@[simp] theorem State.setFlagIf_epoch (s : State) (f : Flag) (c : Bool) : (s.setFlagIf f c).epoch = s.epoch := rfl

@[simp] theorem State.clearFlag_status (s : State) (f : Flag) : (s.clearFlag f).status = s.status &&& ~~~f.mask := rfl
@[simp] theorem State.clearFlag_cfg (s : State) (f : Flag) : (s.clearFlag f).cfg = s.cfg := rfl
@[simp] theorem State.clearFlag_timeout (s : State) (f : Flag) : (s.clearFlag f).timeout = s.timeout := rfl
@[simp] theorem State.clearFlag_tHs (s : State) (f : Flag) : (s.clearFlag f).tHs = s.tHs := rfl
@[simp] theorem State.clearFlag_tByte (s : State) (f : Flag) : (s.clearFlag f).tByte = s.tByte := rfl
@[simp] theorem State.clearFlag_tPgap (s : State) (f : Flag) : (s.clearFlag f).tPgap = s.tPgap := rfl
@[simp] theorem State.clearFlag_tDgap (s : State) (f : Flag) : (s.clearFlag f).tDgap = s.tDgap := rfl
@[simp] theorem State.clearFlag_brb (s : State) (f : Flag) : (s.clearFlag f).brb = s.brb := rfl
@[simp] theorem State.clearFlag_txLen (s : State) (f : Flag) : (s.clearFlag f).txLen = s.txLen := rfl
@[simp] theorem State.clearFlag_rxLen (s : State) (f : Flag) : (s.clearFlag f).rxLen = s.rxLen := rfl
@[simp] theorem State.clearFlag_rxCnt (s : State) (f : Flag) : (s.clearFlag f).rxCnt = s.rxCnt := rfl
@[simp] theorem State.clearFlag_att (s : State) (f : Flag) : (s.clearFlag f).att = s.att := rfl
@[simp] theorem State.clearFlag_diagDesync (s : State) (f : Flag) : (s.clearFlag f).diagDesync = s.diagDesync := rfl
@[simp] theorem State.clearFlag_diagRetry (s : State) (f : Flag) : (s.clearFlag f).diagRetry = s.diagRetry := rfl
@[simp] theorem State.clearFlag_diagCsum (s : State) (f : Flag) : (s.clearFlag f).diagCsum = s.diagCsum := rfl
@[simp] theorem State.clearFlag_diagCan (s : State) (f : Flag) : (s.clearFlag f).diagCan = s.diagCan := rfl
@[simp] theorem State.clearFlag_diagOther (s : State) (f : Flag) : (s.clearFlag f).diagOther = s.diagOther := rfl
@[simp] theorem State.clearFlag_mem (s : State) (f : Flag) : (s.clearFlag f).mem = s.mem := rfl
@[simp] theorem State.clearFlag_ph (s : State) (f : Flag) : (s.clearFlag f).ph = s.ph := rfl
@[simp] theorem State.clearFlag_op (s : State) (f : Flag) : (s.clearFlag f).op = s.op := rfl
@[simp] theorem State.clearFlag_txi (s : State) (f : Flag) : (s.clearFlag f).txi = s.txi := rfl
@[simp] theorem State.clearFlag_prb (s : State) (f : Flag) : (s.clearFlag f).prb = s.prb := rfl
@[simp] theorem State.clearFlag_brc (s : State) (f : Flag) : (s.clearFlag f).brc = s.brc := rfl
@[simp] theorem State.clearFlag_acc (s : State) (f : Flag) : (s.clearFlag f).acc = s.acc := rfl
@[simp] theorem State.clearFlag_tmr (s : State) (f : Flag) : (s.clearFlag f).tmr = s.tmr := rfl
@[simp] theorem State.clearFlag_rxq (s : State) (f : Flag) : (s.clearFlag f).rxq = s.rxq := rfl
@[simp] theorem State.clearFlag_txLog (s : State) (f : Flag) : (s.clearFlag f).txLog = s.txLog := rfl
@[simp] theorem State.clearFlag_hRdata (s : State) (f : Flag) : (s.clearFlag f).hRdata = s.hRdata := rfl
@[simp] theorem State.clearFlag_script (s : State) (f : Flag) : (s.clearFlag f).script = s.script := rfl
@[simp] theorem State.clearFlag_now (s : State) (f : Flag) : (s.clearFlag f).now = s.now := rfl
@[simp] theorem State.clearFlag_epoch (s : State) (f : Flag) : (s.clearFlag f).epoch = s.epoch := rfl

@[simp] theorem State.countDesync_status (s : State) : s.countDesync.status = s.status := rfl
@[simp] theorem State.countDesync_cfg (s : State) : s.countDesync.cfg = s.cfg := rfl
@[simp] theorem State.countDesync_timeout (s : State) : s.countDesync.timeout = s.timeout := rfl
@[simp] theorem State.countDesync_tHs (s : State) : s.countDesync.tHs = s.tHs := rfl
@[simp] theorem State.countDesync_tByte (s : State) : s.countDesync.tByte = s.tByte := rfl
@[simp] theorem State.countDesync_tPgap (s : State) : s.countDesync.tPgap = s.tPgap := rfl
@[simp] theorem State.countDesync_tDgap (s : State) : s.countDesync.tDgap = s.tDgap := rfl
@[simp] theorem State.countDesync_brb (s : State) : s.countDesync.brb = s.brb := rfl
@[simp] theorem State.countDesync_txLen (s : State) : s.countDesync.txLen = s.txLen := rfl
@[simp] theorem State.countDesync_rxLen (s : State) : s.countDesync.rxLen = s.rxLen := rfl
@[simp] theorem State.countDesync_rxCnt (s : State) : s.countDesync.rxCnt = s.rxCnt := rfl
@[simp] theorem State.countDesync_att (s : State) : s.countDesync.att = s.att := rfl
@[simp] theorem State.countDesync_diagDesync (s : State) : s.countDesync.diagDesync = satInc s.diagDesync := rfl
@[simp] theorem State.countDesync_diagRetry (s : State) : s.countDesync.diagRetry = s.diagRetry := rfl
@[simp] theorem State.countDesync_diagCsum (s : State) : s.countDesync.diagCsum = s.diagCsum := rfl
@[simp] theorem State.countDesync_diagCan (s : State) : s.countDesync.diagCan = s.diagCan := rfl
@[simp] theorem State.countDesync_diagOther (s : State) : s.countDesync.diagOther = s.diagOther := rfl
@[simp] theorem State.countDesync_mem (s : State) : s.countDesync.mem = s.mem := rfl
@[simp] theorem State.countDesync_ph (s : State) : s.countDesync.ph = s.ph := rfl
@[simp] theorem State.countDesync_op (s : State) : s.countDesync.op = s.op := rfl
@[simp] theorem State.countDesync_txi (s : State) : s.countDesync.txi = s.txi := rfl
@[simp] theorem State.countDesync_prb (s : State) : s.countDesync.prb = s.prb := rfl
@[simp] theorem State.countDesync_brc (s : State) : s.countDesync.brc = s.brc := rfl
@[simp] theorem State.countDesync_acc (s : State) : s.countDesync.acc = s.acc := rfl
@[simp] theorem State.countDesync_tmr (s : State) : s.countDesync.tmr = s.tmr := rfl
@[simp] theorem State.countDesync_rxq (s : State) : s.countDesync.rxq = s.rxq := rfl
@[simp] theorem State.countDesync_txLog (s : State) : s.countDesync.txLog = s.txLog := rfl
@[simp] theorem State.countDesync_hRdata (s : State) : s.countDesync.hRdata = s.hRdata := rfl
@[simp] theorem State.countDesync_script (s : State) : s.countDesync.script = s.script := rfl
@[simp] theorem State.countDesync_now (s : State) : s.countDesync.now = s.now := rfl
@[simp] theorem State.countDesync_epoch (s : State) : s.countDesync.epoch = s.epoch := rfl

@[simp] theorem State.countRetry_status (s : State) : s.countRetry.status = s.status := rfl
@[simp] theorem State.countRetry_cfg (s : State) : s.countRetry.cfg = s.cfg := rfl
@[simp] theorem State.countRetry_timeout (s : State) : s.countRetry.timeout = s.timeout := rfl
@[simp] theorem State.countRetry_tHs (s : State) : s.countRetry.tHs = s.tHs := rfl
@[simp] theorem State.countRetry_tByte (s : State) : s.countRetry.tByte = s.tByte := rfl
@[simp] theorem State.countRetry_tPgap (s : State) : s.countRetry.tPgap = s.tPgap := rfl
@[simp] theorem State.countRetry_tDgap (s : State) : s.countRetry.tDgap = s.tDgap := rfl
@[simp] theorem State.countRetry_brb (s : State) : s.countRetry.brb = s.brb := rfl
@[simp] theorem State.countRetry_txLen (s : State) : s.countRetry.txLen = s.txLen := rfl
@[simp] theorem State.countRetry_rxLen (s : State) : s.countRetry.rxLen = s.rxLen := rfl
@[simp] theorem State.countRetry_rxCnt (s : State) : s.countRetry.rxCnt = s.rxCnt := rfl
@[simp] theorem State.countRetry_att (s : State) : s.countRetry.att = s.att := rfl
@[simp] theorem State.countRetry_diagDesync (s : State) : s.countRetry.diagDesync = s.diagDesync := rfl
@[simp] theorem State.countRetry_diagRetry (s : State) : s.countRetry.diagRetry = satInc s.diagRetry := rfl
@[simp] theorem State.countRetry_diagCsum (s : State) : s.countRetry.diagCsum = s.diagCsum := rfl
@[simp] theorem State.countRetry_diagCan (s : State) : s.countRetry.diagCan = s.diagCan := rfl
@[simp] theorem State.countRetry_diagOther (s : State) : s.countRetry.diagOther = s.diagOther := rfl
@[simp] theorem State.countRetry_mem (s : State) : s.countRetry.mem = s.mem := rfl
@[simp] theorem State.countRetry_ph (s : State) : s.countRetry.ph = s.ph := rfl
@[simp] theorem State.countRetry_op (s : State) : s.countRetry.op = s.op := rfl
@[simp] theorem State.countRetry_txi (s : State) : s.countRetry.txi = s.txi := rfl
@[simp] theorem State.countRetry_prb (s : State) : s.countRetry.prb = s.prb := rfl
@[simp] theorem State.countRetry_brc (s : State) : s.countRetry.brc = s.brc := rfl
@[simp] theorem State.countRetry_acc (s : State) : s.countRetry.acc = s.acc := rfl
@[simp] theorem State.countRetry_tmr (s : State) : s.countRetry.tmr = s.tmr := rfl
@[simp] theorem State.countRetry_rxq (s : State) : s.countRetry.rxq = s.rxq := rfl
@[simp] theorem State.countRetry_txLog (s : State) : s.countRetry.txLog = s.txLog := rfl
@[simp] theorem State.countRetry_hRdata (s : State) : s.countRetry.hRdata = s.hRdata := rfl
@[simp] theorem State.countRetry_script (s : State) : s.countRetry.script = s.script := rfl
@[simp] theorem State.countRetry_now (s : State) : s.countRetry.now = s.now := rfl
@[simp] theorem State.countRetry_epoch (s : State) : s.countRetry.epoch = s.epoch := rfl

@[simp] theorem State.countCsumIf_status (s : State) (c : Bool) : (s.countCsumIf c).status = s.status := rfl
@[simp] theorem State.countCsumIf_cfg (s : State) (c : Bool) : (s.countCsumIf c).cfg = s.cfg := rfl
@[simp] theorem State.countCsumIf_timeout (s : State) (c : Bool) : (s.countCsumIf c).timeout = s.timeout := rfl
@[simp] theorem State.countCsumIf_tHs (s : State) (c : Bool) : (s.countCsumIf c).tHs = s.tHs := rfl
@[simp] theorem State.countCsumIf_tByte (s : State) (c : Bool) : (s.countCsumIf c).tByte = s.tByte := rfl
@[simp] theorem State.countCsumIf_tPgap (s : State) (c : Bool) : (s.countCsumIf c).tPgap = s.tPgap := rfl
@[simp] theorem State.countCsumIf_tDgap (s : State) (c : Bool) : (s.countCsumIf c).tDgap = s.tDgap := rfl
@[simp] theorem State.countCsumIf_brb (s : State) (c : Bool) : (s.countCsumIf c).brb = s.brb := rfl
@[simp] theorem State.countCsumIf_txLen (s : State) (c : Bool) : (s.countCsumIf c).txLen = s.txLen := rfl
@[simp] theorem State.countCsumIf_rxLen (s : State) (c : Bool) : (s.countCsumIf c).rxLen = s.rxLen := rfl
@[simp] theorem State.countCsumIf_rxCnt (s : State) (c : Bool) : (s.countCsumIf c).rxCnt = s.rxCnt := rfl
@[simp] theorem State.countCsumIf_att (s : State) (c : Bool) : (s.countCsumIf c).att = s.att := rfl
@[simp] theorem State.countCsumIf_diagDesync (s : State) (c : Bool) : (s.countCsumIf c).diagDesync = s.diagDesync := rfl
@[simp] theorem State.countCsumIf_diagRetry (s : State) (c : Bool) : (s.countCsumIf c).diagRetry = s.diagRetry := rfl
@[simp] theorem State.countCsumIf_diagCsum (s : State) (c : Bool) : (s.countCsumIf c).diagCsum = if c then satInc s.diagCsum else s.diagCsum := rfl
@[simp] theorem State.countCsumIf_diagCan (s : State) (c : Bool) : (s.countCsumIf c).diagCan = s.diagCan := rfl
@[simp] theorem State.countCsumIf_diagOther (s : State) (c : Bool) : (s.countCsumIf c).diagOther = s.diagOther := rfl
@[simp] theorem State.countCsumIf_mem (s : State) (c : Bool) : (s.countCsumIf c).mem = s.mem := rfl
@[simp] theorem State.countCsumIf_ph (s : State) (c : Bool) : (s.countCsumIf c).ph = s.ph := rfl
@[simp] theorem State.countCsumIf_op (s : State) (c : Bool) : (s.countCsumIf c).op = s.op := rfl
@[simp] theorem State.countCsumIf_txi (s : State) (c : Bool) : (s.countCsumIf c).txi = s.txi := rfl
@[simp] theorem State.countCsumIf_prb (s : State) (c : Bool) : (s.countCsumIf c).prb = s.prb := rfl
@[simp] theorem State.countCsumIf_brc (s : State) (c : Bool) : (s.countCsumIf c).brc = s.brc := rfl
@[simp] theorem State.countCsumIf_acc (s : State) (c : Bool) : (s.countCsumIf c).acc = s.acc := rfl
@[simp] theorem State.countCsumIf_tmr (s : State) (c : Bool) : (s.countCsumIf c).tmr = s.tmr := rfl
@[simp] theorem State.countCsumIf_rxq (s : State) (c : Bool) : (s.countCsumIf c).rxq = s.rxq := rfl
@[simp] theorem State.countCsumIf_txLog (s : State) (c : Bool) : (s.countCsumIf c).txLog = s.txLog := rfl
@[simp] theorem State.countCsumIf_hRdata (s : State) (c : Bool) : (s.countCsumIf c).hRdata = s.hRdata := rfl
@[simp] theorem State.countCsumIf_script (s : State) (c : Bool) : (s.countCsumIf c).script = s.script := rfl
@[simp] theorem State.countCsumIf_now (s : State) (c : Bool) : (s.countCsumIf c).now = s.now := rfl
@[simp] theorem State.countCsumIf_epoch (s : State) (c : Bool) : (s.countCsumIf c).epoch = s.epoch := rfl

@[simp] theorem State.countCan_status (s : State) : s.countCan.status = s.status := rfl
@[simp] theorem State.countCan_cfg (s : State) : s.countCan.cfg = s.cfg := rfl
@[simp] theorem State.countCan_timeout (s : State) : s.countCan.timeout = s.timeout := rfl
@[simp] theorem State.countCan_tHs (s : State) : s.countCan.tHs = s.tHs := rfl
@[simp] theorem State.countCan_tByte (s : State) : s.countCan.tByte = s.tByte := rfl
@[simp] theorem State.countCan_tPgap (s : State) : s.countCan.tPgap = s.tPgap := rfl
@[simp] theorem State.countCan_tDgap (s : State) : s.countCan.tDgap = s.tDgap := rfl
@[simp] theorem State.countCan_brb (s : State) : s.countCan.brb = s.brb := rfl
@[simp] theorem State.countCan_txLen (s : State) : s.countCan.txLen = s.txLen := rfl
@[simp] theorem State.countCan_rxLen (s : State) : s.countCan.rxLen = s.rxLen := rfl
@[simp] theorem State.countCan_rxCnt (s : State) : s.countCan.rxCnt = s.rxCnt := rfl
@[simp] theorem State.countCan_att (s : State) : s.countCan.att = s.att := rfl
@[simp] theorem State.countCan_diagDesync (s : State) : s.countCan.diagDesync = s.diagDesync := rfl
@[simp] theorem State.countCan_diagRetry (s : State) : s.countCan.diagRetry = s.diagRetry := rfl
@[simp] theorem State.countCan_diagCsum (s : State) : s.countCan.diagCsum = s.diagCsum := rfl
@[simp] theorem State.countCan_diagCan (s : State) : s.countCan.diagCan = satInc s.diagCan := rfl
@[simp] theorem State.countCan_diagOther (s : State) : s.countCan.diagOther = s.diagOther := rfl
@[simp] theorem State.countCan_mem (s : State) : s.countCan.mem = s.mem := rfl
@[simp] theorem State.countCan_ph (s : State) : s.countCan.ph = s.ph := rfl
@[simp] theorem State.countCan_op (s : State) : s.countCan.op = s.op := rfl
@[simp] theorem State.countCan_txi (s : State) : s.countCan.txi = s.txi := rfl
@[simp] theorem State.countCan_prb (s : State) : s.countCan.prb = s.prb := rfl
@[simp] theorem State.countCan_brc (s : State) : s.countCan.brc = s.brc := rfl
@[simp] theorem State.countCan_acc (s : State) : s.countCan.acc = s.acc := rfl
@[simp] theorem State.countCan_tmr (s : State) : s.countCan.tmr = s.tmr := rfl
@[simp] theorem State.countCan_rxq (s : State) : s.countCan.rxq = s.rxq := rfl
@[simp] theorem State.countCan_txLog (s : State) : s.countCan.txLog = s.txLog := rfl
@[simp] theorem State.countCan_hRdata (s : State) : s.countCan.hRdata = s.hRdata := rfl
@[simp] theorem State.countCan_script (s : State) : s.countCan.script = s.script := rfl
@[simp] theorem State.countCan_now (s : State) : s.countCan.now = s.now := rfl
@[simp] theorem State.countCan_epoch (s : State) : s.countCan.epoch = s.epoch := rfl

@[simp] theorem State.countOther_status (s : State) : s.countOther.status = s.status := rfl
@[simp] theorem State.countOther_cfg (s : State) : s.countOther.cfg = s.cfg := rfl
@[simp] theorem State.countOther_timeout (s : State) : s.countOther.timeout = s.timeout := rfl
@[simp] theorem State.countOther_tHs (s : State) : s.countOther.tHs = s.tHs := rfl
@[simp] theorem State.countOther_tByte (s : State) : s.countOther.tByte = s.tByte := rfl
@[simp] theorem State.countOther_tPgap (s : State) : s.countOther.tPgap = s.tPgap := rfl
@[simp] theorem State.countOther_tDgap (s : State) : s.countOther.tDgap = s.tDgap := rfl
@[simp] theorem State.countOther_brb (s : State) : s.countOther.brb = s.brb := rfl
@[simp] theorem State.countOther_txLen (s : State) : s.countOther.txLen = s.txLen := rfl
@[simp] theorem State.countOther_rxLen (s : State) : s.countOther.rxLen = s.rxLen := rfl
@[simp] theorem State.countOther_rxCnt (s : State) : s.countOther.rxCnt = s.rxCnt := rfl
@[simp] theorem State.countOther_att (s : State) : s.countOther.att = s.att := rfl
@[simp] theorem State.countOther_diagDesync (s : State) : s.countOther.diagDesync = s.diagDesync := rfl
@[simp] theorem State.countOther_diagRetry (s : State) : s.countOther.diagRetry = s.diagRetry := rfl
@[simp] theorem State.countOther_diagCsum (s : State) : s.countOther.diagCsum = s.diagCsum := rfl
@[simp] theorem State.countOther_diagCan (s : State) : s.countOther.diagCan = s.diagCan := rfl
@[simp] theorem State.countOther_diagOther (s : State) : s.countOther.diagOther = satInc s.diagOther := rfl
@[simp] theorem State.countOther_mem (s : State) : s.countOther.mem = s.mem := rfl
@[simp] theorem State.countOther_ph (s : State) : s.countOther.ph = s.ph := rfl
@[simp] theorem State.countOther_op (s : State) : s.countOther.op = s.op := rfl
@[simp] theorem State.countOther_txi (s : State) : s.countOther.txi = s.txi := rfl
@[simp] theorem State.countOther_prb (s : State) : s.countOther.prb = s.prb := rfl
@[simp] theorem State.countOther_brc (s : State) : s.countOther.brc = s.brc := rfl
@[simp] theorem State.countOther_acc (s : State) : s.countOther.acc = s.acc := rfl
@[simp] theorem State.countOther_tmr (s : State) : s.countOther.tmr = s.tmr := rfl
@[simp] theorem State.countOther_rxq (s : State) : s.countOther.rxq = s.rxq := rfl
@[simp] theorem State.countOther_txLog (s : State) : s.countOther.txLog = s.txLog := rfl
@[simp] theorem State.countOther_hRdata (s : State) : s.countOther.hRdata = s.hRdata := rfl
@[simp] theorem State.countOther_script (s : State) : s.countOther.script = s.script := rfl
@[simp] theorem State.countOther_now (s : State) : s.countOther.now = s.now := rfl
@[simp] theorem State.countOther_epoch (s : State) : s.countOther.epoch = s.epoch := rfl

@[simp] theorem State.enter_status (s : State) (p : Phase) : (s.enter p).status = s.status := rfl
@[simp] theorem State.enter_cfg (s : State) (p : Phase) : (s.enter p).cfg = s.cfg := rfl
@[simp] theorem State.enter_timeout (s : State) (p : Phase) : (s.enter p).timeout = s.timeout := rfl
@[simp] theorem State.enter_tHs (s : State) (p : Phase) : (s.enter p).tHs = s.tHs := rfl
@[simp] theorem State.enter_tByte (s : State) (p : Phase) : (s.enter p).tByte = s.tByte := rfl
@[simp] theorem State.enter_tPgap (s : State) (p : Phase) : (s.enter p).tPgap = s.tPgap := rfl
@[simp] theorem State.enter_tDgap (s : State) (p : Phase) : (s.enter p).tDgap = s.tDgap := rfl
@[simp] theorem State.enter_brb (s : State) (p : Phase) : (s.enter p).brb = s.brb := rfl
@[simp] theorem State.enter_txLen (s : State) (p : Phase) : (s.enter p).txLen = s.txLen := rfl
@[simp] theorem State.enter_rxLen (s : State) (p : Phase) : (s.enter p).rxLen = s.rxLen := rfl
@[simp] theorem State.enter_rxCnt (s : State) (p : Phase) : (s.enter p).rxCnt = s.rxCnt := rfl
@[simp] theorem State.enter_att (s : State) (p : Phase) : (s.enter p).att = s.att := rfl
@[simp] theorem State.enter_diagDesync (s : State) (p : Phase) : (s.enter p).diagDesync = s.diagDesync := rfl
@[simp] theorem State.enter_diagRetry (s : State) (p : Phase) : (s.enter p).diagRetry = s.diagRetry := rfl
@[simp] theorem State.enter_diagCsum (s : State) (p : Phase) : (s.enter p).diagCsum = s.diagCsum := rfl
@[simp] theorem State.enter_diagCan (s : State) (p : Phase) : (s.enter p).diagCan = s.diagCan := rfl
@[simp] theorem State.enter_diagOther (s : State) (p : Phase) : (s.enter p).diagOther = s.diagOther := rfl
@[simp] theorem State.enter_mem (s : State) (p : Phase) : (s.enter p).mem = s.mem := rfl
@[simp] theorem State.enter_ph (s : State) (p : Phase) : (s.enter p).ph = p := rfl
@[simp] theorem State.enter_op (s : State) (p : Phase) : (s.enter p).op = s.op := rfl
@[simp] theorem State.enter_txi (s : State) (p : Phase) : (s.enter p).txi = s.txi := rfl
@[simp] theorem State.enter_prb (s : State) (p : Phase) : (s.enter p).prb = s.prb := rfl
@[simp] theorem State.enter_brc (s : State) (p : Phase) : (s.enter p).brc = s.waitExpiries p := rfl
@[simp] theorem State.enter_acc (s : State) (p : Phase) : (s.enter p).acc = s.acc := rfl
@[simp] theorem State.enter_tmr (s : State) (p : Phase) : (s.enter p).tmr = s.waitTicks p := rfl
@[simp] theorem State.enter_rxq (s : State) (p : Phase) : (s.enter p).rxq = s.rxq := rfl
@[simp] theorem State.enter_txLog (s : State) (p : Phase) : (s.enter p).txLog = s.txLog := rfl
@[simp] theorem State.enter_hRdata (s : State) (p : Phase) : (s.enter p).hRdata = s.hRdata := rfl
@[simp] theorem State.enter_script (s : State) (p : Phase) : (s.enter p).script = s.script := rfl
@[simp] theorem State.enter_now (s : State) (p : Phase) : (s.enter p).now = s.now := rfl
@[simp] theorem State.enter_epoch (s : State) (p : Phase) : (s.enter p).epoch = s.epoch := rfl

@[simp] theorem State.writeBuf_status (s : State) (a : Nat) (b : Byte) : (s.writeBuf a b).status = s.status := rfl
@[simp] theorem State.writeBuf_cfg (s : State) (a : Nat) (b : Byte) : (s.writeBuf a b).cfg = s.cfg := rfl
@[simp] theorem State.writeBuf_timeout (s : State) (a : Nat) (b : Byte) : (s.writeBuf a b).timeout = s.timeout := rfl
@[simp] theorem State.writeBuf_tHs (s : State) (a : Nat) (b : Byte) : (s.writeBuf a b).tHs = s.tHs := rfl
@[simp] theorem State.writeBuf_tByte (s : State) (a : Nat) (b : Byte) : (s.writeBuf a b).tByte = s.tByte := rfl
@[simp] theorem State.writeBuf_tPgap (s : State) (a : Nat) (b : Byte) : (s.writeBuf a b).tPgap = s.tPgap := rfl
@[simp] theorem State.writeBuf_tDgap (s : State) (a : Nat) (b : Byte) : (s.writeBuf a b).tDgap = s.tDgap := rfl
@[simp] theorem State.writeBuf_brb (s : State) (a : Nat) (b : Byte) : (s.writeBuf a b).brb = s.brb := rfl
@[simp] theorem State.writeBuf_txLen (s : State) (a : Nat) (b : Byte) : (s.writeBuf a b).txLen = s.txLen := rfl
@[simp] theorem State.writeBuf_rxLen (s : State) (a : Nat) (b : Byte) : (s.writeBuf a b).rxLen = s.rxLen := rfl
@[simp] theorem State.writeBuf_rxCnt (s : State) (a : Nat) (b : Byte) : (s.writeBuf a b).rxCnt = s.rxCnt := rfl
@[simp] theorem State.writeBuf_att (s : State) (a : Nat) (b : Byte) : (s.writeBuf a b).att = s.att := rfl
@[simp] theorem State.writeBuf_diagDesync (s : State) (a : Nat) (b : Byte) : (s.writeBuf a b).diagDesync = s.diagDesync := rfl
@[simp] theorem State.writeBuf_diagRetry (s : State) (a : Nat) (b : Byte) : (s.writeBuf a b).diagRetry = s.diagRetry := rfl
@[simp] theorem State.writeBuf_diagCsum (s : State) (a : Nat) (b : Byte) : (s.writeBuf a b).diagCsum = s.diagCsum := rfl
@[simp] theorem State.writeBuf_diagCan (s : State) (a : Nat) (b : Byte) : (s.writeBuf a b).diagCan = s.diagCan := rfl
@[simp] theorem State.writeBuf_diagOther (s : State) (a : Nat) (b : Byte) : (s.writeBuf a b).diagOther = s.diagOther := rfl
@[simp] theorem State.writeBuf_mem (s : State) (a : Nat) (b : Byte) : (s.writeBuf a b).mem = Memory.write s.mem a b := rfl
@[simp] theorem State.writeBuf_ph (s : State) (a : Nat) (b : Byte) : (s.writeBuf a b).ph = s.ph := rfl
@[simp] theorem State.writeBuf_op (s : State) (a : Nat) (b : Byte) : (s.writeBuf a b).op = s.op := rfl
@[simp] theorem State.writeBuf_txi (s : State) (a : Nat) (b : Byte) : (s.writeBuf a b).txi = s.txi := rfl
@[simp] theorem State.writeBuf_prb (s : State) (a : Nat) (b : Byte) : (s.writeBuf a b).prb = s.prb := rfl
@[simp] theorem State.writeBuf_brc (s : State) (a : Nat) (b : Byte) : (s.writeBuf a b).brc = s.brc := rfl
@[simp] theorem State.writeBuf_acc (s : State) (a : Nat) (b : Byte) : (s.writeBuf a b).acc = s.acc := rfl
@[simp] theorem State.writeBuf_tmr (s : State) (a : Nat) (b : Byte) : (s.writeBuf a b).tmr = s.tmr := rfl
@[simp] theorem State.writeBuf_rxq (s : State) (a : Nat) (b : Byte) : (s.writeBuf a b).rxq = s.rxq := rfl
@[simp] theorem State.writeBuf_txLog (s : State) (a : Nat) (b : Byte) : (s.writeBuf a b).txLog = s.txLog := rfl
@[simp] theorem State.writeBuf_hRdata (s : State) (a : Nat) (b : Byte) : (s.writeBuf a b).hRdata = s.hRdata := rfl
@[simp] theorem State.writeBuf_script (s : State) (a : Nat) (b : Byte) : (s.writeBuf a b).script = s.script := rfl
@[simp] theorem State.writeBuf_now (s : State) (a : Nat) (b : Byte) : (s.writeBuf a b).now = s.now := rfl
@[simp] theorem State.writeBuf_epoch (s : State) (a : Nat) (b : Byte) : (s.writeBuf a b).epoch = s.epoch := rfl

@[simp] theorem State.rxDrain_status (s : State) : s.rxDrain.status = s.status := rfl
@[simp] theorem State.rxDrain_cfg (s : State) : s.rxDrain.cfg = s.cfg := rfl
@[simp] theorem State.rxDrain_timeout (s : State) : s.rxDrain.timeout = s.timeout := rfl
@[simp] theorem State.rxDrain_tHs (s : State) : s.rxDrain.tHs = s.tHs := rfl
@[simp] theorem State.rxDrain_tByte (s : State) : s.rxDrain.tByte = s.tByte := rfl
@[simp] theorem State.rxDrain_tPgap (s : State) : s.rxDrain.tPgap = s.tPgap := rfl
@[simp] theorem State.rxDrain_tDgap (s : State) : s.rxDrain.tDgap = s.tDgap := rfl
@[simp] theorem State.rxDrain_brb (s : State) : s.rxDrain.brb = s.brb := rfl
@[simp] theorem State.rxDrain_txLen (s : State) : s.rxDrain.txLen = s.txLen := rfl
@[simp] theorem State.rxDrain_rxLen (s : State) : s.rxDrain.rxLen = s.rxLen := rfl
@[simp] theorem State.rxDrain_rxCnt (s : State) : s.rxDrain.rxCnt = s.rxCnt := rfl
@[simp] theorem State.rxDrain_att (s : State) : s.rxDrain.att = s.att := rfl
@[simp] theorem State.rxDrain_diagDesync (s : State) : s.rxDrain.diagDesync = s.diagDesync := rfl
@[simp] theorem State.rxDrain_diagRetry (s : State) : s.rxDrain.diagRetry = s.diagRetry := rfl
@[simp] theorem State.rxDrain_diagCsum (s : State) : s.rxDrain.diagCsum = s.diagCsum := rfl
@[simp] theorem State.rxDrain_diagCan (s : State) : s.rxDrain.diagCan = s.diagCan := rfl
@[simp] theorem State.rxDrain_diagOther (s : State) : s.rxDrain.diagOther = s.diagOther := rfl
@[simp] theorem State.rxDrain_mem (s : State) : s.rxDrain.mem = s.mem := rfl
@[simp] theorem State.rxDrain_ph (s : State) : s.rxDrain.ph = s.ph := rfl
@[simp] theorem State.rxDrain_op (s : State) : s.rxDrain.op = s.op := rfl
@[simp] theorem State.rxDrain_txi (s : State) : s.rxDrain.txi = s.txi := rfl
@[simp] theorem State.rxDrain_prb (s : State) : s.rxDrain.prb = s.prb := rfl
@[simp] theorem State.rxDrain_brc (s : State) : s.rxDrain.brc = s.brc := rfl
@[simp] theorem State.rxDrain_acc (s : State) : s.rxDrain.acc = s.acc := rfl
@[simp] theorem State.rxDrain_tmr (s : State) : s.rxDrain.tmr = s.tmr := rfl
@[simp] theorem State.rxDrain_rxq (s : State) : s.rxDrain.rxq = [] := rfl
@[simp] theorem State.rxDrain_txLog (s : State) : s.rxDrain.txLog = s.txLog := rfl
@[simp] theorem State.rxDrain_hRdata (s : State) : s.rxDrain.hRdata = s.hRdata := rfl
@[simp] theorem State.rxDrain_script (s : State) : s.rxDrain.script = s.script := rfl
@[simp] theorem State.rxDrain_now (s : State) : s.rxDrain.now = s.now := rfl
@[simp] theorem State.rxDrain_epoch (s : State) : s.rxDrain.epoch = s.epoch := rfl

@[simp] theorem State.txWrite_status (s : State) (b : Byte) : (s.txWrite b).status = s.status := rfl
@[simp] theorem State.txWrite_cfg (s : State) (b : Byte) : (s.txWrite b).cfg = s.cfg := rfl
@[simp] theorem State.txWrite_timeout (s : State) (b : Byte) : (s.txWrite b).timeout = s.timeout := rfl
@[simp] theorem State.txWrite_tHs (s : State) (b : Byte) : (s.txWrite b).tHs = s.tHs := rfl
@[simp] theorem State.txWrite_tByte (s : State) (b : Byte) : (s.txWrite b).tByte = s.tByte := rfl
@[simp] theorem State.txWrite_tPgap (s : State) (b : Byte) : (s.txWrite b).tPgap = s.tPgap := rfl
@[simp] theorem State.txWrite_tDgap (s : State) (b : Byte) : (s.txWrite b).tDgap = s.tDgap := rfl
@[simp] theorem State.txWrite_brb (s : State) (b : Byte) : (s.txWrite b).brb = s.brb := rfl
@[simp] theorem State.txWrite_txLen (s : State) (b : Byte) : (s.txWrite b).txLen = s.txLen := rfl
@[simp] theorem State.txWrite_rxLen (s : State) (b : Byte) : (s.txWrite b).rxLen = s.rxLen := rfl
@[simp] theorem State.txWrite_rxCnt (s : State) (b : Byte) : (s.txWrite b).rxCnt = s.rxCnt := rfl
@[simp] theorem State.txWrite_att (s : State) (b : Byte) : (s.txWrite b).att = s.att := rfl
@[simp] theorem State.txWrite_diagDesync (s : State) (b : Byte) : (s.txWrite b).diagDesync = s.diagDesync := rfl
@[simp] theorem State.txWrite_diagRetry (s : State) (b : Byte) : (s.txWrite b).diagRetry = s.diagRetry := rfl
@[simp] theorem State.txWrite_diagCsum (s : State) (b : Byte) : (s.txWrite b).diagCsum = s.diagCsum := rfl
@[simp] theorem State.txWrite_diagCan (s : State) (b : Byte) : (s.txWrite b).diagCan = s.diagCan := rfl
@[simp] theorem State.txWrite_diagOther (s : State) (b : Byte) : (s.txWrite b).diagOther = s.diagOther := rfl
@[simp] theorem State.txWrite_mem (s : State) (b : Byte) : (s.txWrite b).mem = s.mem := rfl
@[simp] theorem State.txWrite_ph (s : State) (b : Byte) : (s.txWrite b).ph = s.ph := rfl
@[simp] theorem State.txWrite_op (s : State) (b : Byte) : (s.txWrite b).op = s.op := rfl
@[simp] theorem State.txWrite_txi (s : State) (b : Byte) : (s.txWrite b).txi = s.txi := rfl
@[simp] theorem State.txWrite_prb (s : State) (b : Byte) : (s.txWrite b).prb = s.prb := rfl
@[simp] theorem State.txWrite_brc (s : State) (b : Byte) : (s.txWrite b).brc = s.brc := rfl
@[simp] theorem State.txWrite_acc (s : State) (b : Byte) : (s.txWrite b).acc = s.acc := rfl
@[simp] theorem State.txWrite_tmr (s : State) (b : Byte) : (s.txWrite b).tmr = s.tmr := rfl
@[simp] theorem State.txWrite_rxq (s : State) (b : Byte) : (s.txWrite b).rxq = s.rxq := rfl
@[simp] theorem State.txWrite_txLog (s : State) (b : Byte) : (s.txWrite b).txLog = s.txLog ++ [b] := rfl
@[simp] theorem State.txWrite_hRdata (s : State) (b : Byte) : (s.txWrite b).hRdata = s.hRdata := rfl
@[simp] theorem State.txWrite_script (s : State) (b : Byte) : (s.txWrite b).script = s.script := rfl
@[simp] theorem State.txWrite_now (s : State) (b : Byte) : (s.txWrite b).now = s.now := rfl
@[simp] theorem State.txWrite_epoch (s : State) (b : Byte) : (s.txWrite b).epoch = s.epoch := rfl

@[simp] theorem State.tickDown_status (s : State) : s.tickDown.status = s.status := rfl
@[simp] theorem State.tickDown_cfg (s : State) : s.tickDown.cfg = s.cfg := rfl
@[simp] theorem State.tickDown_timeout (s : State) : s.tickDown.timeout = s.timeout := rfl
@[simp] theorem State.tickDown_tHs (s : State) : s.tickDown.tHs = s.tHs := rfl
@[simp] theorem State.tickDown_tByte (s : State) : s.tickDown.tByte = s.tByte := rfl
@[simp] theorem State.tickDown_tPgap (s : State) : s.tickDown.tPgap = s.tPgap := rfl
@[simp] theorem State.tickDown_tDgap (s : State) : s.tickDown.tDgap = s.tDgap := rfl
@[simp] theorem State.tickDown_brb (s : State) : s.tickDown.brb = s.brb := rfl
@[simp] theorem State.tickDown_txLen (s : State) : s.tickDown.txLen = s.txLen := rfl
@[simp] theorem State.tickDown_rxLen (s : State) : s.tickDown.rxLen = s.rxLen := rfl
@[simp] theorem State.tickDown_rxCnt (s : State) : s.tickDown.rxCnt = s.rxCnt := rfl
@[simp] theorem State.tickDown_att (s : State) : s.tickDown.att = s.att := rfl
@[simp] theorem State.tickDown_diagDesync (s : State) : s.tickDown.diagDesync = s.diagDesync := rfl
@[simp] theorem State.tickDown_diagRetry (s : State) : s.tickDown.diagRetry = s.diagRetry := rfl
@[simp] theorem State.tickDown_diagCsum (s : State) : s.tickDown.diagCsum = s.diagCsum := rfl
@[simp] theorem State.tickDown_diagCan (s : State) : s.tickDown.diagCan = s.diagCan := rfl
@[simp] theorem State.tickDown_diagOther (s : State) : s.tickDown.diagOther = s.diagOther := rfl
@[simp] theorem State.tickDown_mem (s : State) : s.tickDown.mem = s.mem := rfl
@[simp] theorem State.tickDown_ph (s : State) : s.tickDown.ph = s.ph := rfl
@[simp] theorem State.tickDown_op (s : State) : s.tickDown.op = s.op := rfl
@[simp] theorem State.tickDown_txi (s : State) : s.tickDown.txi = s.txi := rfl
@[simp] theorem State.tickDown_prb (s : State) : s.tickDown.prb = s.prb := rfl
@[simp] theorem State.tickDown_brc (s : State) : s.tickDown.brc = s.brc := rfl
@[simp] theorem State.tickDown_acc (s : State) : s.tickDown.acc = s.acc := rfl
@[simp] theorem State.tickDown_rxq (s : State) : s.tickDown.rxq = s.rxq := rfl
@[simp] theorem State.tickDown_txLog (s : State) : s.tickDown.txLog = s.txLog := rfl
@[simp] theorem State.tickDown_hRdata (s : State) : s.tickDown.hRdata = s.hRdata := rfl
@[simp] theorem State.tickDown_script (s : State) : s.tickDown.script = s.script := rfl
@[simp] theorem State.tickDown_now (s : State) : s.tickDown.now = s.now := rfl
@[simp] theorem State.tickDown_epoch (s : State) : s.tickDown.epoch = s.epoch := rfl

@[simp] theorem State.hostRead_status (s : State) (i : RegIndex) : (s.hostRead i).status = s.status := rfl
@[simp] theorem State.hostRead_cfg (s : State) (i : RegIndex) : (s.hostRead i).cfg = s.cfg := rfl
@[simp] theorem State.hostRead_timeout (s : State) (i : RegIndex) : (s.hostRead i).timeout = s.timeout := rfl
@[simp] theorem State.hostRead_tHs (s : State) (i : RegIndex) : (s.hostRead i).tHs = s.tHs := rfl
@[simp] theorem State.hostRead_tByte (s : State) (i : RegIndex) : (s.hostRead i).tByte = s.tByte := rfl
@[simp] theorem State.hostRead_tPgap (s : State) (i : RegIndex) : (s.hostRead i).tPgap = s.tPgap := rfl
@[simp] theorem State.hostRead_tDgap (s : State) (i : RegIndex) : (s.hostRead i).tDgap = s.tDgap := rfl
@[simp] theorem State.hostRead_brb (s : State) (i : RegIndex) : (s.hostRead i).brb = s.brb := rfl
@[simp] theorem State.hostRead_txLen (s : State) (i : RegIndex) : (s.hostRead i).txLen = s.txLen := rfl
@[simp] theorem State.hostRead_rxLen (s : State) (i : RegIndex) : (s.hostRead i).rxLen = s.rxLen := rfl
@[simp] theorem State.hostRead_rxCnt (s : State) (i : RegIndex) : (s.hostRead i).rxCnt = s.rxCnt := rfl
@[simp] theorem State.hostRead_att (s : State) (i : RegIndex) : (s.hostRead i).att = s.att := rfl
@[simp] theorem State.hostRead_diagDesync (s : State) (i : RegIndex) : (s.hostRead i).diagDesync = s.diagDesync := rfl
@[simp] theorem State.hostRead_diagRetry (s : State) (i : RegIndex) : (s.hostRead i).diagRetry = s.diagRetry := rfl
@[simp] theorem State.hostRead_diagCsum (s : State) (i : RegIndex) : (s.hostRead i).diagCsum = s.diagCsum := rfl
@[simp] theorem State.hostRead_diagCan (s : State) (i : RegIndex) : (s.hostRead i).diagCan = s.diagCan := rfl
@[simp] theorem State.hostRead_diagOther (s : State) (i : RegIndex) : (s.hostRead i).diagOther = s.diagOther := rfl
@[simp] theorem State.hostRead_mem (s : State) (i : RegIndex) : (s.hostRead i).mem = s.mem := rfl
@[simp] theorem State.hostRead_ph (s : State) (i : RegIndex) : (s.hostRead i).ph = s.ph := rfl
@[simp] theorem State.hostRead_op (s : State) (i : RegIndex) : (s.hostRead i).op = s.op := rfl
@[simp] theorem State.hostRead_txi (s : State) (i : RegIndex) : (s.hostRead i).txi = s.txi := rfl
@[simp] theorem State.hostRead_prb (s : State) (i : RegIndex) : (s.hostRead i).prb = s.prb := rfl
@[simp] theorem State.hostRead_brc (s : State) (i : RegIndex) : (s.hostRead i).brc = s.brc := rfl
@[simp] theorem State.hostRead_acc (s : State) (i : RegIndex) : (s.hostRead i).acc = s.acc := rfl
@[simp] theorem State.hostRead_tmr (s : State) (i : RegIndex) : (s.hostRead i).tmr = s.tmr := rfl
@[simp] theorem State.hostRead_rxq (s : State) (i : RegIndex) : (s.hostRead i).rxq = s.rxq := rfl
@[simp] theorem State.hostRead_txLog (s : State) (i : RegIndex) : (s.hostRead i).txLog = s.txLog := rfl
@[simp] theorem State.hostRead_hRdata (s : State) (i : RegIndex) : (s.hostRead i).hRdata = s.readReg i := rfl
@[simp] theorem State.hostRead_script (s : State) (i : RegIndex) : (s.hostRead i).script = s.script := rfl
@[simp] theorem State.hostRead_now (s : State) (i : RegIndex) : (s.hostRead i).now = s.now := rfl
@[simp] theorem State.hostRead_epoch (s : State) (i : RegIndex) : (s.hostRead i).epoch = s.epoch := rfl

@[simp] theorem State.advance_status (s : State) (m : Move) : (s.advance m).status = s.status := rfl
@[simp] theorem State.advance_cfg (s : State) (m : Move) : (s.advance m).cfg = s.cfg := rfl
@[simp] theorem State.advance_timeout (s : State) (m : Move) : (s.advance m).timeout = s.timeout := rfl
@[simp] theorem State.advance_tHs (s : State) (m : Move) : (s.advance m).tHs = s.tHs := rfl
@[simp] theorem State.advance_tByte (s : State) (m : Move) : (s.advance m).tByte = s.tByte := rfl
@[simp] theorem State.advance_tPgap (s : State) (m : Move) : (s.advance m).tPgap = s.tPgap := rfl
@[simp] theorem State.advance_tDgap (s : State) (m : Move) : (s.advance m).tDgap = s.tDgap := rfl
@[simp] theorem State.advance_brb (s : State) (m : Move) : (s.advance m).brb = s.brb := rfl
@[simp] theorem State.advance_txLen (s : State) (m : Move) : (s.advance m).txLen = s.txLen := rfl
@[simp] theorem State.advance_rxLen (s : State) (m : Move) : (s.advance m).rxLen = s.rxLen := rfl
@[simp] theorem State.advance_rxCnt (s : State) (m : Move) : (s.advance m).rxCnt = s.rxCnt := rfl
@[simp] theorem State.advance_att (s : State) (m : Move) : (s.advance m).att = s.att := rfl
@[simp] theorem State.advance_diagDesync (s : State) (m : Move) : (s.advance m).diagDesync = s.diagDesync := rfl
@[simp] theorem State.advance_diagRetry (s : State) (m : Move) : (s.advance m).diagRetry = s.diagRetry := rfl
@[simp] theorem State.advance_diagCsum (s : State) (m : Move) : (s.advance m).diagCsum = s.diagCsum := rfl
@[simp] theorem State.advance_diagCan (s : State) (m : Move) : (s.advance m).diagCan = s.diagCan := rfl
@[simp] theorem State.advance_diagOther (s : State) (m : Move) : (s.advance m).diagOther = s.diagOther := rfl
@[simp] theorem State.advance_mem (s : State) (m : Move) : (s.advance m).mem = s.mem := rfl
@[simp] theorem State.advance_ph (s : State) (m : Move) : (s.advance m).ph = s.ph := rfl
@[simp] theorem State.advance_op (s : State) (m : Move) : (s.advance m).op = s.op := rfl
@[simp] theorem State.advance_txi (s : State) (m : Move) : (s.advance m).txi = s.txi := rfl
@[simp] theorem State.advance_prb (s : State) (m : Move) : (s.advance m).prb = s.prb := rfl
@[simp] theorem State.advance_brc (s : State) (m : Move) : (s.advance m).brc = s.brc := rfl
@[simp] theorem State.advance_acc (s : State) (m : Move) : (s.advance m).acc = s.acc := rfl
@[simp] theorem State.advance_tmr (s : State) (m : Move) : (s.advance m).tmr = s.tmr := rfl
@[simp] theorem State.advance_rxq (s : State) (m : Move) : (s.advance m).rxq = s.rxq := rfl
@[simp] theorem State.advance_txLog (s : State) (m : Move) : (s.advance m).txLog = s.txLog := rfl
@[simp] theorem State.advance_hRdata (s : State) (m : Move) : (s.advance m).hRdata = s.hRdata := rfl
@[simp] theorem State.advance_script (s : State) (m : Move) : (s.advance m).script = s.script.tail := rfl
@[simp] theorem State.advance_now (s : State) (m : Move) : (s.advance m).now = s.now + 1 := rfl

end Sys2Proof.Machine
end

