-- ==== Sys2Proof/Laws/Flags.lean ====
section
/-!
SUPPORT. Flags: what each operation on STATUS does to each flag, and what the accessors of the state depend on.
-/

namespace Sys2Proof.Machine

/-- A flag's mask has that flag's bit and no other flag's. -/
@[simp] theorem Flag.getLsbD_mask (f g : Flag) : f.mask.getLsbD g.bit = decide (f = g) := by
  cases f <;> cases g <;> rfl

/-- No flag is the reserved bit. -/
@[simp] theorem Flag.getLsbD_mask_reserved (f : Flag) : f.mask.getLsbD 15 = false := by cases f <;> rfl

theorem Flag.bit_lt (f : Flag) : f.bit < 16 := by cases f <;> decide

theorem State.flag_def (s : State) (f : Flag) : s.flag f = s.status.getLsbD f.bit := rfl

@[simp] theorem State.flag_setFlag (s : State) (f g : Flag) : (s.setFlag f).flag g = (s.flag g || decide (f = g)) := by
  simp [State.flag]

@[simp] theorem State.flag_setFlagIf (s : State) (f g : Flag) (c : Bool) :
    (s.setFlagIf f c).flag g = (s.flag g || (c && decide (f = g))) := by
  cases c <;> simp [State.flag]

@[simp] theorem State.flag_clearFlag (s : State) (f g : Flag) :
    (s.clearFlag f).flag g = (s.flag g && !decide (f = g)) := by
  simp only [State.flag, State.clearFlag_status, BitVec.getLsbD_and, BitVec.getLsbD_not, Flag.getLsbD_mask,
    Flag.bit_lt g, decide_true, Bool.true_and]

/-- After accept only BUSY is set (R245). -/
@[simp] theorem getLsbD_acceptedStatus (w : Word16) (f : Flag) :
    (acceptedStatus w).getLsbD f.bit = decide (f = .busy) := by
  cases f <;> simp [acceptedStatus, Flag.bit]

@[simp] theorem getLsbD_acceptedStatus_reserved (w : Word16) : (acceptedStatus w).getLsbD 15 = w.getLsbD 15 := by
  simp [acceptedStatus]

/-- Any update that leaves STATUS alone leaves every flag alone. -/
theorem State.flag_congr {s t : State} (h : s.status = t.status) (f : Flag) : s.flag f = t.flag f := by
  simp [State.flag, h]

@[simp] theorem State.flag_enter (s : State) (p : Phase) (f : Flag) : (s.enter p).flag f = s.flag f := rfl
@[simp] theorem State.flag_countDesync (s : State) (f : Flag) : s.countDesync.flag f = s.flag f := rfl
@[simp] theorem State.flag_countRetry (s : State) (f : Flag) : s.countRetry.flag f = s.flag f := rfl
@[simp] theorem State.flag_countCsumIf (s : State) (c : Bool) (f : Flag) : (s.countCsumIf c).flag f = s.flag f := rfl
@[simp] theorem State.flag_countCan (s : State) (f : Flag) : s.countCan.flag f = s.flag f := rfl
@[simp] theorem State.flag_countOther (s : State) (f : Flag) : s.countOther.flag f = s.flag f := rfl
@[simp] theorem State.flag_writeBuf (s : State) (a : Nat) (b : Byte) (f : Flag) : (s.writeBuf a b).flag f = s.flag f := rfl
@[simp] theorem State.flag_rxDrain (s : State) (f : Flag) : s.rxDrain.flag f = s.flag f := rfl
@[simp] theorem State.flag_txWrite (s : State) (b : Byte) (f : Flag) : (s.txWrite b).flag f = s.flag f := rfl
@[simp] theorem State.flag_tickDown (s : State) (f : Flag) : s.tickDown.flag f = s.flag f := rfl
@[simp] theorem State.flag_hostRead (s : State) (i : RegIndex) (f : Flag) : (s.hostRead i).flag f = s.flag f := rfl
@[simp] theorem State.flag_advance (s : State) (m : Move) (f : Flag) : (s.advance m).flag f = s.flag f := rfl

/-- A saturating counter never goes down (R32). -/
theorem satInc_le (v : Byte) : v.toNat ≤ (satInc v).toNat := by
  simp only [satInc]
  split
  · have := v.isLt; simp; omega
  · rename_i h
    have : v.toNat ≠ 255 := fun e => h (BitVec.eq_of_toNat_eq (by simp [e]))
    have := v.isLt
    simp [BitVec.toNat_add]
    omega

/-- The value of a saturating counter after one more event (R32, R138 e). -/
theorem toNat_satInc (v : Byte) : (satInc v).toNat = min 255 (v.toNat + 1) := by
  simp only [satInc]
  split
  · rename_i h; subst h; rfl
  · rename_i h
    have : v.toNat ≠ 255 := fun e => h (BitVec.eq_of_toNat_eq (by simp [e]))
    have := v.isLt
    simp [BitVec.toNat_add]
    omega

end Sys2Proof.Machine
end

