-- ==== Sys2Proof/Laws/Memory.lean ====
section
/-!
SUPPORT. The buffer memory: reading after writing, and that writing keeps the canonical form.
-/

namespace Sys2Proof.Machine

@[simp] theorem Memory.read_nil (a : Nat) : Memory.read [] a = none := rfl

theorem Memory.read_cons (c : Host.Cell) (m : List Host.Cell) (a : Nat) :
    Memory.read (c :: m) a = if c.1 = a then some c.2 else Memory.read m a := rfl

/-- Below every listed address there is nothing to read. -/
theorem Memory.read_below (m : List Host.Cell) (a : Nat) (h : ∀ c ∈ m, a < c.1) : Memory.read m a = none := by
  induction m with
  | nil => rfl
  | cons c m ih =>
    have hc := h c (by simp)
    rw [Memory.read_cons, if_neg (by omega)]
    exact ih fun d hd => h d (by simp [hd])

/-- A read of the byte written gives it; a read of any other gives what it gave before. -/
theorem Memory.read_write (m : List Host.Cell) (a : Nat) (b : Byte) (x : Nat) :
    Memory.read (Memory.write m a b) x = if x = a then some b else Memory.read m x := by
  induction m with
  | nil => simp [Memory.write, Memory.read_cons, eq_comm]
  | cons c m ih =>
    simp only [Memory.write]
    split
    · simp [Memory.read_cons, eq_comm]
    · split
      · rename_i h1 h2
        simp only [Memory.read_cons, h2, eq_comm (a := a)]
        split <;> rfl
      · rename_i h1 h2
        rw [Memory.read_cons, ih, Memory.read_cons]
        by_cases hx : x = a
        · subst hx; simp [h2]
        · simp [hx]

@[simp] theorem Memory.read_write_same (m : List Host.Cell) (a : Nat) (b : Byte) :
    Memory.read (Memory.write m a b) a = some b := by simp [Memory.read_write]

/-- Where the cells of a written memory come from. -/
theorem Memory.mem_write {m : List Host.Cell} {a : Nat} {b : Byte} {c : Host.Cell} (h : c ∈ Memory.write m a b) :
    c = (a, b) ∨ c ∈ m := by
  induction m with
  | nil => simpa [Memory.write] using h
  | cons d m ih =>
    simp only [Memory.write] at h
    split at h
    · simpa using h
    · split at h
      · rcases List.mem_cons.mp h with h | h
        · exact .inl h
        · exact .inr (by simp [h])
      · rcases List.mem_cons.mp h with h | h
        · exact .inr (by simp [h])
        · exact (ih h).imp id fun h => by simp [h]

/-- Writing keeps the addresses strictly rising. -/
theorem Memory.write_rising (m : List Host.Cell) (a : Nat) (b : Byte) (h : m.Pairwise fun c d => c.1 < d.1) :
    (Memory.write m a b).Pairwise fun c d => c.1 < d.1 := by
  induction m with
  | nil => simp [Memory.write]
  | cons c m ih =>
    obtain ⟨hc, hm⟩ := List.pairwise_cons.mp h
    simp only [Memory.write]
    split
    · rename_i h1
      refine List.pairwise_cons.mpr ⟨fun d hd => ?_, h⟩
      rcases List.mem_cons.mp hd with rfl | hd
      · exact h1
      · exact Nat.lt_trans h1 (hc d hd)
    · split
      · rename_i h1 h2
        exact List.pairwise_cons.mpr ⟨fun d hd => by simpa [← h2] using hc d hd, hm⟩
      · rename_i h1 h2
        refine List.pairwise_cons.mpr ⟨fun d hd => ?_, ih hm⟩
        rcases Memory.mem_write hd with rfl | hd
        · change c.1 < a
          omega
        · exact hc d hd

/-- Writing a byte of the buffers keeps the canonical form. -/
theorem Memory.write_wf {m : List Host.Cell} {a : Nat} (b : Byte) (h : Memory.wf m) (ha : Memory.mapped a = true) :
    Memory.wf (Memory.write m a b) := by
  refine ⟨Memory.write_rising m a b h.1, fun c hc => ?_⟩
  rcases Memory.mem_write hc with rfl | hc
  · exact ha
  · exact h.2 c hc

/-- Every byte of TX_BUF is a byte of the buffers. -/
theorem Memory.mapped_txBuf {i : Nat} (h : i < txBufSize) : Memory.mapped (txBufBase + i) = true := by
  simp [Memory.mapped, txBufBase, txBufSize, rxBufBase, rxBufSize] at *
  omega

/-- Every byte of RX_BUF is a byte of the buffers. -/
theorem Memory.mapped_rxBuf {i : Nat} (h : i < rxBufSize) : Memory.mapped (rxBufBase + i) = true := by
  simp [Memory.mapped, txBufBase, txBufSize, rxBufBase, rxBufSize] at *
  omega

/-- Memory after reset is canonical. -/
theorem Memory.wf_reset : Memory.wf State.reset.mem := by simp [State.reset, Memory.wf]

end Sys2Proof.Machine
end

