-- ==== Sys2Proof/Laws/Moves.lean ====
section
/-!
SUPPORT. What a move can do, said once: one inductive relation per agent lists every way its step can end in a next
state, with the conditions under which it does, and one lemma per agent says that the list is complete. Later proofs
take these apart with `cases` and never unfold a step.
-/

namespace Sys2Proof.Laws

open Sys2Proof.Machine

/-- Every way the engine's step can answer a next state (R24, R159). -/
inductive EngineEdge (s : State) : State → Prop
  | rest (h : s.ph = .idle ∨ s.ph = .canGap) : EngineEdge s s
  | preSendCheck (h : s.ph = .preChk) : EngineEdge s s.preSendCheck
  | preSendDrain (h : s.ph = .preDrain) : EngineEdge s s.preSendDrain
  | sendByte (h : s.ph = .tx) (F : List Byte) (b : Byte) (hF : s.txFrame = some F) (hb : F[s.txi.toNat]? = some b) :
      EngineEdge s (s.sendByte F.length b)
  | noByte (h : s.ph = .hsWait ∨ s.ph = .probeGap ∨ s.ph = .rfSync ∨ s.ph = .rfLen ∨ s.ph = .rfBody)
      (hq : s.rxq = []) : EngineEdge s s
  | confirmed (h : s.ph = .hsWait) (q : List Byte) (hq : s.rxq = 0x06#8 :: q) :
      EngineEdge s (State.confirmed { s with rxq := q })
  | cancelled (h : s.ph = .hsWait) (q : List Byte) (hq : s.rxq = 0x18#8 :: q) (hc : s.canEn = true) :
      EngineEdge s (State.cancelled { s with rxq := q })
  | otherReply (h : s.ph = .hsWait) (b : Byte) (q : List Byte) (hq : s.rxq = b :: q) (hb : b ≠ 0x06#8)
      (hc : ¬(b = 0x18#8 ∧ s.canEn = true)) : EngineEdge s (State.otherReply { s with rxq := q })
  | sendProbe (h : s.ph = .probeTx) : EngineEdge s s.sendProbe
  | probeAnswered (h : s.ph = .probeGap) (hq : s.rxq ≠ []) : EngineEdge s s.probeAnswered
  | cancelAck (h : s.ph = .canAck) : EngineEdge s s.cancelAck
  | cancelDrain1 (h : s.ph = .canDrain1) : EngineEdge s s.cancelDrain1
  | cancelDrain2 (h : s.ph = .canDrain2) : EngineEdge s s.cancelDrain2
  | otherDrain (h : s.ph = .othDrain) : EngineEdge s s.otherDrain
  | retryOrGiveUp (h : s.ph = .nextAttempt) : EngineEdge s s.retryOrGiveUp
  | afterSend (h : s.ph = .post) : EngineEdge s s.afterSend
  | startMarker (h : s.ph = .rfSync) (q : List Byte) (hq : s.rxq = 0x01#8 :: q) :
      EngineEdge s (State.startMarker { s with rxq := q })
  | desyncByte (h : s.ph = .rfSync) (b : Byte) (q : List Byte) (hq : s.rxq = b :: q) (hb : b ≠ 0x01#8) :
      EngineEdge s (State.desyncByte { s with rxq := q })
  | lengthByte (h : s.ph = .rfLen) (l : Byte) (q : List Byte) (hq : s.rxq = l :: q) :
      EngineEdge s (State.lengthByte { s with rxq := q } l)
  | bodyByte (h : s.ph = .rfBody) (c : Byte) (q : List Byte) (hq : s.rxq = c :: q)
      (hc : s.rxCnt.toNat < s.rxLen.toNat) : EngineEdge s (State.bodyByte { s with rxq := q } c)
  | checkFrame (h : s.ph = .rfCheck) : EngineEdge s s.checkFrame
  | ackFrame (h : s.ph = .rfAck) : EngineEdge s s.ackFrame
  | finishCommand (h : s.ph = .finish) : EngineEdge s s.finishCommand

/-- What a byte does that is taken in HS_WAIT (R206, R207, R208). -/
theorem consume_hsWait {u : State} (b : Byte) (h : u.ph = .hsWait) :
    consume b u = .next (if b = 0x06#8 then u.confirmed
      else if b = 0x18#8 ∧ u.canEn = true then u.cancelled else u.otherReply) := by
  by_cases h6 : b = 0x06#8
  · simp [consume, h, decodeByte, h6, exec, execAck]
  · by_cases h15 : b = 0x15#8
    · simp [consume, h, decodeByte, h15, exec, execNak]
    · by_cases h18 : b = 0x18#8
      · cases hc : u.canEn <;> simp [consume, h, decodeByte, h18, hc, exec, execCan, execHsOther]
      · simp [consume, h, decodeByte, h6, h15, h18, exec, execHsOther]

/-- What a byte does that is taken in RF_SYNC (R174). -/
theorem consume_rfSync {u : State} (b : Byte) (h : u.ph = .rfSync) :
    consume b u = .next (if b = 0x01#8 then u.startMarker else u.desyncByte) := by
  by_cases h1 : b = 0x01#8 <;> simp [consume, h, decodeByte, h1, exec, execSof, execSyncSkip]

/-- What a byte does that is taken in RF_LEN (R175). -/
theorem consume_rfLen {u : State} (b : Byte) (h : u.ph = .rfLen) : consume b u = .next (u.lengthByte b) := by
  simp [consume, h]

/-- What a byte does that is taken in RF_BODY (R177). -/
theorem consume_rfBody {u : State} (b : Byte) (h : u.ph = .rfBody) :
    consume b u = if u.rxCnt.toNat < u.rxLen.toNat then .next (u.bodyByte b) else .refused .stuckBodyCount := by
  simp [consume, h]

theorem consumeHead_nil {s : State} (h : s.rxq = []) : consumeHead s = .next s := by
  simp [consumeHead, State.rxTake, h]

theorem consumeHead_cons {s : State} {b : Byte} {q : List Byte} (h : s.rxq = b :: q) :
    consumeHead s = consume b { s with rxq := q } := by
  simp [consumeHead, State.rxTake, h]

/-- The list of the engine's steps is complete. -/
theorem engineStep_cases {s t : State} (h : engineStep s = .next t) : EngineEdge s t := by
  simp only [engineStep] at h
  split at h
  case h_4 hp =>
    simp only [txStep] at h
    split at h
    · rename_i F hF
      simp only [sendStep] at h
      split at h
      · rename_i b hb
        cases h
        exact .sendByte hp F b hF hb
      · cases h
    · cases h
  case h_5 hp =>
    cases hq : s.rxq with
    | nil => rw [consumeHead_nil hq] at h; cases h; exact .noByte (.inl hp) hq
    | cons b q =>
      rw [consumeHead_cons hq, consume_hsWait (u := { s with rxq := q }) b hp] at h
      cases h
      split
      · rename_i h6; subst h6; exact .confirmed hp q hq
      · rename_i h6
        split
        · rename_i hc; obtain ⟨rfl, hc⟩ := hc; exact .cancelled hp q hq hc
        · rename_i hc; exact .otherReply hp b q hq h6 hc
  case h_7 hp =>
    cases h
    split
    · rename_i ha; exact .probeAnswered hp (by simpa [State.rxAvail] using ha)
    · rename_i ha; exact .noByte (.inr (.inl hp)) (by simpa [State.rxAvail] using ha)
  case h_15 hp =>
    cases hq : s.rxq with
    | nil => rw [consumeHead_nil hq] at h; cases h; exact .noByte (.inr (.inr (.inl hp))) hq
    | cons b q =>
      rw [consumeHead_cons hq, consume_rfSync (u := { s with rxq := q }) b hp] at h
      cases h
      split
      · rename_i h1; subst h1; exact .startMarker hp q hq
      · rename_i h1; exact .desyncByte hp b q hq h1
  case h_16 hp =>
    cases hq : s.rxq with
    | nil => rw [consumeHead_nil hq] at h; cases h; exact .noByte (.inr (.inr (.inr (.inl hp)))) hq
    | cons b q => rw [consumeHead_cons hq, consume_rfLen (u := { s with rxq := q }) b hp] at h; cases h; exact .lengthByte hp b q hq
  case h_17 hp =>
    cases hq : s.rxq with
    | nil => rw [consumeHead_nil hq] at h; cases h; exact .noByte (.inr (.inr (.inr (.inr hp)))) hq
    | cons b q =>
      rw [consumeHead_cons hq, consume_rfBody (u := { s with rxq := q }) b hp] at h
      split at h
      · rename_i hc; cases h; exact .bodyByte hp b q hq hc
      · cases h
  all_goals rename_i hp; cases h
  · exact .rest (.inl hp)
  · exact .preSendCheck hp
  · exact .preSendDrain hp
  · exact .sendProbe hp
  · exact .cancelAck hp
  · exact .cancelDrain1 hp
  · exact .rest (.inr hp)
  · exact .cancelDrain2 hp
  · exact .otherDrain hp
  · exact .retryOrGiveUp hp
  · exact .afterSend hp
  · exact .checkFrame hp
  · exact .ackFrame hp
  · exact .finishCommand hp

/-- Every way the TIME step can answer a next state (R158). -/
inductive ExpireEdge (s : State) : State → Prop
  | notEnabled (h : s.expireEnabled = false) : ExpireEdge s s
  | noReply (h : s.ph = .hsWait) (hq : s.rxq = []) : ExpireEdge s s.noReply
  | nextProbe (h : s.ph = .probeGap) (hq : s.rxq = []) (hp : s.prb.toNat < 32) : ExpireEdge s (s.enter .probeTx)
  | probesDone (h : s.ph = .probeGap) (hq : s.rxq = []) (hp : s.prb.toNat = 32) : ExpireEdge s (s.enter .nextAttempt)
  | cancelGapOver (h : s.ph = .canGap) : ExpireEdge s s.cancelGapOver
  | syncStall (h : s.ph = .rfSync) (hq : s.rxq = []) : ExpireEdge s s.syncStall
  | waitAgain (h : s.ph = .rfLen ∨ s.ph = .rfBody) (hq : s.rxq = []) (hb : s.brc + 1#8 ≠ s.brb) :
      ExpireEdge s { s with brc := s.brc + 1#8, tmr := s.tByte }
  | lengthStall (h : s.ph = .rfLen) (hq : s.rxq = []) (hb : s.brc + 1#8 = s.brb) :
      ExpireEdge s (State.lengthStall { s with brc := s.brc + 1#8 })
  | bodyStall (h : s.ph = .rfBody) (hq : s.rxq = []) (hb : s.brc + 1#8 = s.brb) :
      ExpireEdge s (State.bodyStall { s with brc := s.brc + 1#8 })

theorem rxq_nil_of_not_rxAvail {s : State} (h : (!s.rxAvail) = true) : s.rxq = [] := by
  simpa [State.rxAvail] using h

/-- The list of TIME's steps is complete. -/
theorem expireStep_cases {s t : State} (h : expireStep s = .next t) : ExpireEdge s t := by
  simp only [expireStep] at h
  split at h
  · rename_i he
    simp only [State.expireEnabled] at he
    split at h <;> rename_i hp <;> simp only [hp] at he
    · cases h; exact .noReply hp (rxq_nil_of_not_rxAvail he)
    · by_cases h32 : s.prb.toNat < 32
      · simp only [probeExpiry, Config.probeMax, h32, if_true] at h
        cases h; exact .nextProbe hp (rxq_nil_of_not_rxAvail he) h32
      · by_cases h32' : s.prb.toNat = 32
        · simp only [probeExpiry, Config.probeMax, h32', Nat.lt_irrefl, if_false, if_true] at h
          cases h; exact .probesDone hp (rxq_nil_of_not_rxAvail he) h32'
        · simp only [probeExpiry, Config.probeMax, h32, h32', if_false] at h
          cases h
    · cases h; exact .cancelGapOver hp
    · cases h; exact .syncStall hp (rxq_nil_of_not_rxAvail he)
    · simp only [State.byteExpiry] at h
      split at h
      · rename_i hb; cases h; exact .lengthStall hp (rxq_nil_of_not_rxAvail he) hb
      · rename_i hb; cases h; exact .waitAgain (.inl hp) (rxq_nil_of_not_rxAvail he) hb
    · simp only [State.byteExpiry] at h
      split at h
      · rename_i hb; cases h; exact .bodyStall hp (rxq_nil_of_not_rxAvail he) hb
      · rename_i hb; cases h; exact .waitAgain (.inr hp) (rxq_nil_of_not_rxAvail he) hb
    · cases he
  · rename_i he; cases h; exact .notEnabled (by simpa using he)

/-- Every way a host write can answer a next state (R244 to R249). -/
inductive WriteEdge (idx : RegIndex) (data : Word16) (s : State) : State → Prop
  | overrun (h : s.flag .busy = true) : WriteEdge idx data s s.overrun
  | nop (h : s.flag .busy = false) (hi : idx = 0x000#10) (hd : data.toNat % 256 = 0) : WriteEdge idx data s s
  | illegal (h : s.flag .busy = false) (hi : idx = 0x000#10) (hd : 4 ≤ data.toNat % 256) :
      WriteEdge idx data s (s.setFlag .ill)
  | tooLong (h : s.flag .busy = false) (hi : idx = 0x000#10) (hd : data.toNat % 256 = 2 ∨ data.toNat % 256 = 3)
      (hl : 253 < s.txLen.toNat) : WriteEdge idx data s (s.setFlag .ill)
  | recv (h : s.flag .busy = false) (hi : idx = 0x000#10) (hd : data.toNat % 256 = 1) : WriteEdge idx data s (s.accept 1#2)
  | send (h : s.flag .busy = false) (hi : idx = 0x000#10) (hd : data.toNat % 256 = 2) (hl : s.txLen.toNat ≤ 253)
      (hw : s.payloadWritten = true) : WriteEdge idx data s (s.accept 2#2)
  | sendr (h : s.flag .busy = false) (hi : idx = 0x000#10) (hd : data.toNat % 256 = 3) (hl : s.txLen.toNat ≤ 253)
      (hw : s.payloadWritten = true) : WriteEdge idx data s (s.accept 3#2)
  | store (h : s.flag .busy = false) (hi : idx ≠ 0x000#10) : WriteEdge idx data s (s.store idx data)

theorem setWidth_eq_iff (data : Word16) (n : Nat) (hn : n < 256) :
    data.setWidth 8 = BitVec.ofNat 8 n ↔ data.toNat % 256 = n := by
  rw [← BitVec.toNat_inj]; simp [Nat.mod_eq_of_lt hn]

/-- The list of the host's writes is complete. -/
theorem hostWrite_cases {idx : RegIndex} {data : Word16} {s t : State} (h : hostWrite idx data s = .next t) :
    WriteEdge idx data s t := by
  by_cases hb : s.flag .busy = true
  · have : t = s.overrun := by
      simp only [hostWrite, hb, if_true] at h
      split at h
      · simp only [decodeByte] at h
        split at h
        · simp only [exec, execNop, hb, if_true] at h; cases h; rfl
        · split at h
          · simp only [exec, execRecv, hb, if_true] at h; cases h; rfl
          · split at h
            · simp only [exec, execSend, startSend, hb, if_true] at h; cases h; rfl
            · split at h
              · simp only [exec, execSendr, startSend, hb, if_true] at h; cases h; rfl
              · simp only [exec, execCmdIllegal, hb, if_true] at h; cases h; rfl
      · cases h; rfl
    subst this; exact .overrun hb
  · have hb' : s.flag .busy = false := by simpa using hb
    simp only [hostWrite, hb, cmdIndex] at h
    split at h
    · rename_i hi
      simp only [decodeByte] at h
      split at h
      · rename_i h0
        simp only [exec, execNop, hb] at h; cases h
        exact .nop hb' hi ((setWidth_eq_iff data 0 (by omega)).mp h0)
      · rename_i h0
        split at h
        · rename_i h1
          simp only [exec, execRecv, hb] at h; cases h
          exact .recv hb' hi ((setWidth_eq_iff data 1 (by omega)).mp h1)
        · rename_i h1
          split at h
          · rename_i h2
            have h2' := (setWidth_eq_iff data 2 (by omega)).mp h2
            simp only [exec, execSend, startSend, hb', Config.maxPayload, Bool.false_eq_true, if_false] at h
            by_cases hl : 253 < s.txLen.toNat
            · simp only [hl, if_true] at h; cases h; exact .tooLong hb' hi (.inl h2') hl
            · by_cases hw : s.payloadWritten = true
              · simp only [hl, hw, if_true, if_false] at h; cases h; exact .send hb' hi h2' (by omega) hw
              · simp only [hl, hw, if_false] at h; cases h
          · rename_i h2
            split at h
            · rename_i h3
              have h3' := (setWidth_eq_iff data 3 (by omega)).mp h3
              simp only [exec, execSendr, startSend, hb', Config.maxPayload, Bool.false_eq_true, if_false] at h
              by_cases hl : 253 < s.txLen.toNat
              · simp only [hl, if_true] at h; cases h; exact .tooLong hb' hi (.inr h3') hl
              · by_cases hw : s.payloadWritten = true
                · simp only [hl, hw, if_true, if_false] at h; cases h; exact .sendr hb' hi h3' (by omega) hw
                · simp only [hl, hw, if_false] at h; cases h
            · rename_i h3
              simp only [exec, execCmdIllegal, hb] at h; cases h
              have e0 := mt (setWidth_eq_iff data 0 (by omega)).mpr h0
              have e1 := mt (setWidth_eq_iff data 1 (by omega)).mpr h1
              have e2 := mt (setWidth_eq_iff data 2 (by omega)).mpr h2
              have e3 := mt (setWidth_eq_iff data 3 (by omega)).mpr h3
              exact .illegal hb' hi (by omega)
    · rename_i hi
      cases h; exact .store hb' hi

/-- A clock edge is the engine's step, an expiry, or nothing. -/
theorem clockEdge_cases {s t : State} (h : clockEdge s = .next t) :
    (s.engineEnabled = true ∧ EngineEdge s t) ∨ (s.expireEnabled = true ∧ s.tmr = 0#16 ∧ ExpireEdge s t) ∨ t = s := by
  simp only [clockEdge] at h
  split at h
  · rename_i he; exact .inl ⟨he, engineStep_cases h⟩
  · split at h
    · rename_i he; exact .inr (.inl ⟨he.1, he.2, expireStep_cases h⟩)
    · cases h; exact .inr (.inr rfl)

end Sys2Proof.Laws
end

