-- ==== Sys2Proof/Laws/Frames.lean ====
section
/-!
SUPPORT. Whole frames: the length of the frame being sent, what sending the rest of a frame leaves, what reading body
bytes leaves, and that going over a whole frame is a run of the engine's single steps.
-/

namespace Sys2Proof.Laws

open Sys2Proof.Machine

/-- A run of the engine's single steps. -/
abbrev EngineRun (s t : State) : Prop := Relation.ReflTransGen EngineEdge s t

@[simp] theorem length_txPayload (s : State) : s.txPayload.length = s.txLen.toNat := by simp [State.txPayload]

@[simp] theorem length_rxBody (s : State) : s.rxBody.length = s.rxCnt.toNat := by simp [State.rxBody]

/-- A frame exists exactly for a payload that fits (R132). -/
theorem encodeFrame_some {P F : List Byte} (h : encodeFrame P = some F) :
    P.length ≤ 253 ∧ F = [0x01#8, lengthOf P, 0x00#8] ++ P ++ [csum (lengthOf P :: 0x00#8 :: P)] := by
  simp only [encodeFrame] at h
  split at h
  · rename_i hl; cases h; exact ⟨hl, rfl⟩
  · cases h

/-- The frame being sent has TX_LEN + 4 bytes (R133 a). -/
theorem length_txFrame {s : State} {F : List Byte} (h : s.txFrame = some F) :
    F.length = s.txLen.toNat + 4 ∧ s.txLen.toNat ≤ 253 := by
  obtain ⟨h1, rfl⟩ := encodeFrame_some h
  simp at h1 ⊢
  omega

/-- A byte sent changes nothing the frame is made of. -/
@[simp] theorem txFrame_sendByte (s : State) (n : Nat) (b : Byte) : (s.sendByte n b).txFrame = s.txFrame := by
  simp only [State.sendByte]; split <;> rfl

theorem sendByte_ph (s : State) (n : Nat) (b : Byte) :
    (s.sendByte n b).ph = if s.txi.toNat + 1 < n then s.ph else .hsWait := by
  simp only [State.sendByte]; split <;> rfl

theorem sendByte_txi (s : State) (n : Nat) (b : Byte) :
    (s.sendByte n b).txi = if s.txi.toNat + 1 < n then s.txi + 1#9 else s.txi := by
  simp only [State.sendByte]; split <;> rfl

/-- What a byte sent changes: TXI, ATT, ACC, PH, TXLOG and, after the last byte, the timer of the handshake wait. -/
theorem sendByte_frame (s : State) (n : Nat) (b : Byte) :
    s.sendByte n b =
      { s with
        att := if s.txi = 0#9 then s.att + 1#8 else s.att
        txLog := s.txLog ++ [b]
        txi := if s.txi.toNat + 1 < n then s.txi + 1#9 else s.txi
        ph := if s.txi.toNat + 1 < n then s.ph else .hsWait
        acc := (s.sendByte n b).acc
        tmr := (s.sendByte n b).tmr } := by
  simp only [State.sendByte]; split <;> rfl

/-- What sending the rest of a frame leaves. -/
theorem transmitFrom_spec (F : List Byte) (hF : F.length ≤ 511) :
    ∀ (n : Nat) (s : State), s.ph = .tx → n + 1 + s.txi.toNat = F.length →
      ∃ t, transmitFrom F (n + 1) s = t ∧
        t = { s with
          att := if s.txi = 0#9 then s.att + 1#8 else s.att
          txLog := s.txLog ++ F.drop s.txi.toNat
          txi := BitVec.ofNat 9 (F.length - 1)
          ph := .hsWait
          acc := t.acc
          tmr := t.tmr } := by
  intro n
  induction n with
  | zero =>
    intro s hp hn
    have hb : F[s.txi.toNat]? = some F[s.txi.toNat] := List.getElem?_eq_getElem (by omega)
    refine ⟨_, rfl, ?_⟩
    have hd : F.drop s.txi.toNat = [F[s.txi.toNat]] := by
      rw [List.drop_eq_getElem_cons (by omega), List.drop_eq_nil_of_le (by omega)]
    have hx : s.txi = BitVec.ofNat 9 (F.length - 1) := by
      rw [← hn, ← BitVec.toNat_inj]; simp
    simp only [transmitFrom, hb, hd]
    conv_lhs => rw [sendByte_frame]
    simp only [show ¬ s.txi.toNat + 1 < F.length by omega, if_false, ← hx]
  | succ n ih =>
    intro s hp hn
    have hlt : s.txi.toNat + 1 < F.length := by omega
    have hb : F[s.txi.toNat]? = some F[s.txi.toNat] := List.getElem?_eq_getElem (by omega)
    have hx : (s.txi + 1#9).toNat = s.txi.toNat + 1 := by
      rw [BitVec.toNat_add]; simp; omega
    have hne : s.txi + 1#9 ≠ 0#9 := by
      intro e; rw [e] at hx; simp at hx
    obtain ⟨t, ht, hs⟩ := ih (s.sendByte F.length F[s.txi.toNat])
      (by rw [sendByte_ph, if_pos hlt, hp]) (by rw [sendByte_txi, if_pos hlt, hx]; omega)
    refine ⟨t, by rw [← ht]; simp [transmitFrom, hb], ?_⟩
    rw [hs]
    have hd : F.drop s.txi.toNat = F[s.txi.toNat] :: F.drop (s.txi.toNat + 1) :=
      List.drop_eq_getElem_cons (by omega)
    rw [sendByte_frame]
    simp only [hlt, hx, hne, hd, if_true, if_false, List.append_assoc, List.cons_append, List.nil_append]

/-- Sending the rest of a frame is a run of the engine's steps. -/
theorem transmitFrom_run (F : List Byte) :
    ∀ (n : Nat) (s : State), s.ph = .tx → s.txFrame = some F → n + 1 + s.txi.toNat = F.length →
      EngineRun s (transmitFrom F (n + 1) s) := by
  intro n
  induction n with
  | zero =>
    intro s hp hF hn
    have hb : F[s.txi.toNat]? = some F[s.txi.toNat] := List.getElem?_eq_getElem (by omega)
    simp only [transmitFrom, hb]
    exact .single (.sendByte hp F _ hF hb)
  | succ n ih =>
    intro s hp hF hn
    have hl := length_txFrame hF
    have hlt : s.txi.toNat + 1 < F.length := by omega
    have hb : F[s.txi.toNat]? = some F[s.txi.toNat] := List.getElem?_eq_getElem (by omega)
    have hx : (s.txi + 1#9).toNat = s.txi.toNat + 1 := by
      rw [BitVec.toNat_add]; simp; omega
    rw [transmitFrom, hb]
    refine .head (.sendByte hp F _ hF hb) (ih _ ?_ ?_ ?_)
    · rw [sendByte_ph, if_pos hlt, hp]
    · rw [txFrame_sendByte, hF]
    · rw [sendByte_txi, if_pos hlt, hx]; omega

/-- A body byte is stored at RX_BUF[RX_CNT], summed and counted; the last one leads to the check (R177). -/
theorem bodyByte_frame (s : State) (c : Byte) :
    s.bodyByte c =
      { s with
        mem := Memory.write s.mem (0x200 + s.rxCnt.toNat) c
        acc := s.acc ^^^ c
        rxCnt := s.rxCnt + 1#8
        ph := if s.rxCnt.toNat + 1 = s.rxLen.toNat then .rfCheck else .rfBody
        tmr := (s.bodyByte c).tmr
        brc := (s.bodyByte c).brc } := by
  simp only [State.bodyByte, State.enter]; split <;> rfl

/-- What reading the rest of a body leaves. -/
theorem takeBytes_body :
    ∀ (bytes : List Byte) (s : State), bytes ≠ [] → s.ph = .rfBody → s.rxCnt.toNat + bytes.length = s.rxLen.toNat →
      ∃ t, s.takeBytes bytes = t ∧
        t = { s with
          mem := t.mem
          acc := bytes.foldl (fun x b => x ^^^ b) s.acc
          rxCnt := s.rxLen
          ph := .rfCheck
          tmr := t.tmr
          brc := t.brc } ∧
        ∀ a, Memory.read t.mem a =
          if 0x200 + s.rxCnt.toNat ≤ a ∧ a < 0x200 + s.rxLen.toNat then bytes[a - (0x200 + s.rxCnt.toNat)]?
          else Memory.read s.mem a := by
  intro bytes
  induction bytes with
  | nil => intro s h; exact absurd rfl h
  | cons c rest ih =>
    intro s _ hp hn
    simp only [List.length_cons] at hn
    have hlen := s.rxLen.isLt
    have hx : (s.rxCnt + 1#8).toNat = s.rxCnt.toNat + 1 := by rw [BitVec.toNat_add]; simp; omega
    have h0 : s.takeBytes (c :: rest) = (s.bodyByte c).takeBytes rest := by
      simp [State.takeBytes, State.takeByte, hp]
    rw [h0]
    by_cases hr : rest = []
    · subst hr
      have he : s.rxCnt.toNat + 1 = s.rxLen.toNat := by simpa using hn
      have he' : s.rxCnt + 1#8 = s.rxLen := by rw [← BitVec.toNat_inj, hx, he]
      refine ⟨_, rfl, ?_, fun a => ?_⟩
      · simp only [State.takeBytes, List.foldl_nil, List.foldl_cons]
        conv_lhs => rw [bodyByte_frame]
        simp only [he, if_true, he']
        conv_rhs => rw [bodyByte_frame]
      · simp only [State.takeBytes, List.foldl_nil]
        rw [bodyByte_frame]
        simp only [Memory.read_write, ← he]
        by_cases ha : a = 0x200 + s.rxCnt.toNat
        · subst ha; simp
        · rw [if_neg ha, if_neg (by omega)]
    · have hne : s.rxCnt.toNat + 1 ≠ s.rxLen.toNat := by
        have := List.length_pos_iff.mpr hr; omega
      have e := bodyByte_frame s c
      rw [if_neg hne] at e
      obtain ⟨t, ht, hs, hm⟩ := ih (s.bodyByte c) hr (by rw [e]) (by rw [e]; simp only [hx]; omega)
      refine ⟨t, ht, ?_, fun a => ?_⟩
      · rw [hs, e]; rfl
      · rw [hm a, e]
        simp only [hx, Memory.read_write]
        by_cases ha : a = 0x200 + s.rxCnt.toNat
        · subst ha
          rw [if_neg (by omega), if_pos rfl, if_pos (by omega)]; simp
        · rw [if_neg ha]
          by_cases hb : 0x200 + (s.rxCnt.toNat + 1) ≤ a ∧ a < 0x200 + s.rxLen.toNat
          · rw [if_pos hb, if_pos (by omega), show a - (0x200 + s.rxCnt.toNat) = a - (0x200 + (s.rxCnt.toNat + 1)) + 1 by omega]
            simp
          · rw [if_neg hb, if_neg (by omega)]

/-- Reading the rest of a body that stands at the head of the queue is a run of the engine's steps. -/
theorem takeBytes_run :
    ∀ (bytes q : List Byte) (s : State), s.ph = .rfBody ∨ bytes = [] → s.rxCnt.toNat + bytes.length = s.rxLen.toNat →
      s.rxq = bytes ++ q → EngineRun s (State.takeBytes { s with rxq := q } bytes) := by
  intro bytes
  induction bytes with
  | nil => intro q s _ _ hq; rw [List.nil_append] at hq; subst hq; exact .refl
  | cons c rest ih =>
    intro q s hp hn hq
    replace hp : s.ph = .rfBody := hp.resolve_right (by simp)
    simp only [List.length_cons] at hn
    have hlen := s.rxLen.isLt
    have hx : (s.rxCnt + 1#8).toNat = s.rxCnt.toNat + 1 := by rw [BitVec.toNat_add]; simp; omega
    refine .head (.bodyByte hp c (rest ++ q) (by simpa using hq) (by omega)) ?_
    have h0 : State.takeBytes { s with rxq := q } (c :: rest) =
        State.takeBytes { (State.bodyByte { s with rxq := rest ++ q } c) with rxq := q } rest := by
      simp only [State.takeBytes, List.foldl_cons, State.takeByte, hp]
      congr 1
    rw [h0]
    refine ih q _ ?_ ?_ rfl
    · by_cases hr : rest = []
      · exact .inr hr
      · have := List.length_pos_iff.mpr hr
        left
        rw [bodyByte_frame]
        simp only
        rw [if_neg (by omega)]
    · rw [bodyByte_frame]; simp only [hx]; omega

/-- What a frame row at the front of the bytes says about them (R90, R95). -/
theorem decodeWire_ok {bytes tail : List Byte} {i : Instr} (h : decodeWire bytes = .ok (i, tail)) :
    ∃ len dir rest, bytes = 0x01#8 :: len :: dir :: rest ++ tail ∧ rest.length = len.toNat - 1 ∧
      (i = .frameReq len rest ∧ dir = 0x00#8 ∨ i = .frameRes len rest ∧ dir = 0x01#8) := by
  match bytes, h with
  | [], h => cases h
  | [_], h => cases h
  | [_, _], h => cases h
  | b :: len :: dir :: r, h =>
    simp only [decodeWire] at h
    split at h
    · cases h
    · rename_i hb
      have hb : b = 0x01#8 := by simpa using hb
      subst hb
      split at h
      · cases h
      · rename_i hl
        split at h
        · rename_i hd; cases h
          exact ⟨len, dir, r.take (len.toNat - 1), by simp, by simp; omega, .inl ⟨rfl, hd⟩⟩
        · split at h
          · rename_i hd; cases h
            exact ⟨len, dir, r.take (len.toNat - 1), by simp, by simp; omega, .inr ⟨rfl, hd⟩⟩
          · cases h

/-- Reading a whole frame that stands at the head of the queue is a run of the engine's steps. -/
theorem readWhole_run {s : State} {len dir : Byte} {rest tail : List Byte} (hp : s.ph = .rfSync)
    (hq : s.rxq = 0x01#8 :: len :: dir :: rest ++ tail) (hl : rest.length = len.toNat - 1) :
    EngineRun s (State.readWhole { s with rxq := s.rxq.drop (len.toNat + 2) } (wireBytes len dir rest)) := by
  have hlen := len.isLt
  obtain ⟨q, hq'⟩ : ∃ q, s.rxq.drop (len.toNat + 2) = q := ⟨_, rfl⟩
  rw [hq']
  have hbody : dir :: rest ++ tail = (dir :: rest).take len.toNat ++ q := by
    rw [← hq', hq]
    simp only [List.cons_append, List.drop_succ_cons]
    rw [← List.cons_append]
    by_cases h0 : len.toNat = 0
    · simp [h0]
    · rw [List.take_of_length_le (by simp; omega), List.drop_append_of_le_length (by simp; omega),
        List.drop_of_length_le (by simp; omega), List.nil_append]
  set body := (dir :: rest).take len.toNat with hbd
  have hbl : body.length = len.toNat := by simp [hbd]; omega
  have hq2 : s.rxq = 0x01#8 :: len :: (body ++ q) := by rw [hq, ← hbody]; simp
  refine .head (.startMarker hp _ hq2) (.head (.lengthByte rfl len (body ++ q) rfl) ?_)
  have hw : wireBytes len dir rest = 0x01#8 :: len :: body := rfl
  have h0 : State.takeBytes { s with rxq := q } (wireBytes len dir rest) =
      State.takeBytes { (State.lengthByte (State.startMarker { s with rxq := body ++ q }) len) with rxq := q } body := by
    rw [hw]
    simp only [State.takeBytes, List.foldl_cons, State.takeByte, hp]
    congr 1
  have hrun := takeBytes_run body q (State.lengthByte (State.startMarker { s with rxq := body ++ q }) len)
    (by
      by_cases h : len = 0#8
      · right; apply List.eq_nil_of_length_eq_zero; rw [hbl, h]; rfl
      · left; simp [State.lengthByte, State.enter, h])
    (by simp [State.lengthByte, State.enter, hbl]) rfl
  have hstep : State.lengthByte { State.startMarker { s with rxq := len :: (body ++ q) } with rxq := body ++ q } len
      = State.lengthByte (State.startMarker { s with rxq := body ++ q }) len := rfl
  rw [← h0] at hrun
  rw [hstep]
  refine hrun.trans ?_
  rw [State.readWhole]
  simp only [State.finishRead]
  split
  · rename_i hc
    split
    · rename_i ha
      exact .head (.checkFrame hc) (.single (.ackFrame ha))
    · exact .single (.checkFrame hc)
  · exact .refl

theorem exec_frameReq_rfSync {s u : State} {len : Byte} {rest : List Byte} (h : s.ph = .rfSync) (hu : u.ph = s.ph := by rfl) :
    exec (.frameReq len rest) u = .next (u.readWhole (wireBytes len 0x00#8 rest)) := by
  simp [exec, execFrameReq, hu, h]

theorem exec_frameRes_rfSync {s u : State} {len : Byte} {rest : List Byte} (h : s.ph = .rfSync) (hu : u.ph = s.ph := by rfl) :
    exec (.frameRes len rest) u = .next (u.readWhole (wireBytes len 0x01#8 rest)) := by
  simp [exec, execFrameRes, hu, h]

/-- The frame being sent is the row FRAME.REQ of the table (R132, R203). -/
theorem decodeWire_txFrame {s : State} {F : List Byte} (hF : s.txFrame = some F) :
    ∃ len rest, decode .wire F = .ok (.frameReq len rest, []) ∧ encode (.frameReq len rest) = F := by
  obtain ⟨hl, rfl⟩ := encodeFrame_some hF
  have hL : (lengthOf s.txPayload).toNat = s.txPayload.length + 2 := by
    simp only [lengthOf, BitVec.toNat_ofNat]; omega
  refine ⟨lengthOf s.txPayload, s.txPayload ++ [csum (lengthOf s.txPayload :: 0x00#8 :: s.txPayload)], ?_, rfl⟩
  simp only [decode, decodeWire, List.cons_append, List.nil_append]
  rw [if_neg (by simp), if_neg (by rw [hL]; simp), if_pos trivial, hL]
  rw [List.take_of_length_le (by simp), List.drop_of_length_le (by simp)]

/-- Going over a whole frame is a run of the engine's single steps. -/
theorem frameStep_run {s t : State} (h : frameStep s = .next t) : EngineRun s t := by
  simp only [frameStep, fetchFrame] at h
  split at h
  · rename_i r i u hf
    split at hf
    · rename_i hp
      split at hf
      · rename_i F hF
        split at hf
        · rename_i j tl hd
          cases hf
          obtain ⟨len, rest, hd', he⟩ := decodeWire_txFrame hF
          rw [hd] at hd'; cases hd'
          have hl := length_txFrame hF
          simp only [exec, execFrameReq, hp, if_true, he, transmitFrame] at h
          split at h
          · rename_i hlt
            cases h
            obtain ⟨n, hn⟩ : ∃ n, F.length - s.txi.toNat = n + 1 := ⟨F.length - s.txi.toNat - 1, by omega⟩
            have hr := transmitFrom_run F n s hp hF (by omega)
            rw [← hn] at hr
            exact hr
          · cases h
        · cases hf
      · cases hf
    · rename_i hp
      split at hf
      · rename_i len rest tail hd
        cases hf
        obtain ⟨len', dir, rest', hb, hl, ⟨he, rfl⟩ | ⟨he, _⟩⟩ := decodeWire_ok hd
        · cases he
          rw [exec_frameReq_rfSync hp] at h
          cases h
          exact readWhole_run hp hb hl
        · cases he
      · rename_i len rest tail hd
        cases hf
        obtain ⟨len', dir, rest', hb, hl, ⟨he, _⟩ | ⟨he, rfl⟩⟩ := decodeWire_ok hd
        · cases he
        · cases he
          rw [exec_frameRes_rfSync hp] at h
          cases h
          exact readWhole_run hp hb hl
      · cases hf
    · cases hf
  · cases h; exact .refl

end Sys2Proof.Laws
end

