-- ==== Sys2Proof/Laws/PerInstr.lean ====
section
/-!
SUPPORT. A family of statements, one lemma per row of the encoding table: how many bytes the encoding of a well-formed
instruction has. One byte for every byte row (R110); for a frame row the start marker, the length byte, the direction
byte and the L - 1 bytes after it (R90, R91, R95).
-/

namespace Sys2Proof.Laws.EncodedLength

/-- The encoding of a well-formed instruction has the number of bytes its row gives it. -/
def Statement (i : Instr) : Prop :=
  i.wellFormed = true →
    (encode i).length =
      match i with
      | .frameReq len _ => max 3 (len.toNat + 2)
      | .frameRes len _ => max 3 (len.toNat + 2)
      | _ => 1

theorem sof : Statement .sof := fun _ => rfl
theorem syncSkip (b : Byte) : Statement (.syncSkip b) := fun _ => rfl
theorem ack : Statement .ack := fun _ => rfl
theorem nak : Statement .nak := fun _ => rfl
theorem can : Statement .can := fun _ => rfl
theorem hsOther (b : Byte) : Statement (.hsOther b) := fun _ => rfl
theorem nop : Statement .nop := fun _ => rfl
theorem recv : Statement .recv := fun _ => rfl
theorem send : Statement .send := fun _ => rfl
theorem sendr : Statement .sendr := fun _ => rfl
theorem cmdIllegal (code : Byte) : Statement (.cmdIllegal code) := fun _ => rfl

theorem frameReq (len : Byte) (rest : List Byte) : Statement (.frameReq len rest) := by
  intro h
  simp only [Instr.wellFormed, beq_iff_eq] at h
  simp only [encode, List.length_cons]
  omega

theorem frameRes (len : Byte) (rest : List Byte) : Statement (.frameRes len rest) := by
  intro h
  simp only [Instr.wellFormed, beq_iff_eq] at h
  simp only [encode, List.length_cons]
  omega

end Sys2Proof.Laws.EncodedLength
end

