-- ==== Sys2Proof/Laws/Receive.lean ====
section
/-!
SUPPORT. `readFrame`: when a frame is acknowledged, what the check does to each flag and each register, and what reading
the bytes of a whole frame leaves before the check.
-/

namespace Sys2Proof.Laws

open Sys2Proof.Machine Sys2Proof.Safety

/-- A frame is acknowledged unless it is truncated and CFG.AOT is 0 (R179, R181). -/
theorem ackDue_eq (s : State) : s.ackDue = decide (s.flag .trn = false ∨ s.cfg.getLsbD 5 = true) :=
  (by decide : ∀ x y : Bool, (!x || y) = decide (x = false ∨ y = true)) _ _

/-- What the check does to a flag. -/
theorem flag_checkFrame (s : State) (f : Flag) :
    s.checkFrame.flag f =
      (s.flag f || decide (f = .rxf) || (decide (f = .cse) && (s.acc ^^^ s.rxLen != 0x00#8)) ||
        (decide (f = .sht) && decide (s.rxLen.toNat < 2))) := by
  simp only [State.checkFrame, State.flag_enter, State.flag_countCsumIf, State.flag_setFlag, State.flag_setFlagIf]
  have h : s.flag f = State.flag { s with acc := s.acc ^^^ s.rxLen } f := rfl
  rw [← h]
  cases f <;> simp [Bool.or_comm]

/-- What the check changes: ACC, STATUS, DIAG_CSUM and PH. -/
theorem checkFrame_frame (s : State) :
    s.checkFrame =
      { s with
        acc := s.acc ^^^ s.rxLen
        status := s.checkFrame.status
        diagCsum := if s.acc ^^^ s.rxLen != 0x00#8 then satInc s.diagCsum else s.diagCsum
        ph := if s.ackDue then .rfAck else .finish } := by
  simp only [State.checkFrame]
  split <;> rfl

/-- STATUS after the check. -/
theorem status_checkFrame (s : State) :
    s.checkFrame.status =
      s.status ||| (if s.acc ^^^ s.rxLen = 0#8 then 0#16 else 0x0010#16) |||
        (if s.rxLen.toNat < 2 then 0x0040#16 else 0#16) ||| 0x0008#16 := by
  simp only [State.checkFrame, State.enter_status, State.countCsumIf_status, State.setFlag_status, State.setFlagIf_status]
  by_cases h : s.acc ^^^ s.rxLen = 0#8 <;> by_cases hl : s.rxLen.toNat < 2 <;> simp [h, hl, Flag.mask, Flag.bit]

/-- What reading the bytes of a whole frame leaves before the check: the body in RX_BUF, its exclusive-or in ACC. -/
theorem takeBytes_frame (s : State) (len dir : Byte) (rest : List Byte) (hl : rest.length = len.toNat - 1)
    (hp : s.ph = .rfSync) :
    ∃ t, s.takeBytes (wireBytes len dir rest) = t ∧
      t = { s with
        mem := t.mem
        rxLen := len
        rxCnt := len
        acc := csum ((dir :: rest).take len.toNat)
        ph := .rfCheck
        tmr := t.tmr
        brc := t.brc } ∧
      ∀ a, Memory.read t.mem a =
        if 0x200 ≤ a ∧ a < 0x200 + len.toNat then ((dir :: rest).take len.toNat)[a - 0x200]? else Memory.read s.mem a := by
  have hlen := len.isLt
  have h0 : s.takeBytes (wireBytes len dir rest) =
      (s.startMarker.lengthByte len).takeBytes ((dir :: rest).take len.toNat) := by
    simp only [wireBytes, State.takeBytes, List.foldl_cons, State.takeByte, hp, if_true]
    rfl
  rw [h0]
  by_cases hz : len = 0#8
  · subst hz
    refine ⟨_, rfl, rfl, fun a => ?_⟩
    simp [State.takeBytes, State.lengthByte, State.startMarker]
  · have hpos : 0 < len.toNat := by
      by_contra hc; exact hz (BitVec.eq_of_toNat_eq (by simp; omega))
    obtain ⟨u, hu, he, hm⟩ := takeBytes_body ((dir :: rest).take len.toNat) (s.startMarker.lengthByte len)
      (by simp; omega) (by simp [State.lengthByte, hz]) (by simp [State.lengthByte]; omega)
    refine ⟨u, hu, ?_, ?_⟩
    · rw [he]; rfl
    · intro a; rw [hm a]; simp [State.lengthByte, State.startMarker]

end Sys2Proof.Laws
end

