-- ==== Sys2Proof/Laws/Step.lean ====
section
/-!
SUPPORT. A move of any agent, said once, and the principle every invariant goes through: what each agent's single
steps keep, every step of the machine keeps.
-/

namespace Sys2Proof.Laws

open Sys2Proof.Machine

/-- Every way a move can answer a next state. -/
inductive MoveEdge (s : State) : Move → State → Prop
  | engine {t : State} (h : EngineEdge s t) : MoveEdge s .engine t
  | frame {t : State} (h : EngineRun s t) : MoveEdge s .frame t
  | expire {t : State} (h : ExpireEdge s t) : MoveEdge s .expire t
  | tick : MoveEdge s .tick s.tickDown
  | clkEngine {t : State} (h : EngineEdge s t) : MoveEdge s .clk t
  | clkExpire {t : State} (ht : s.tmr = 0#16) (h : ExpireEdge s t) : MoveEdge s .clk t
  | clkIdle : MoveEdge s .clk s
  | deliver (b : Byte) : MoveEdge s (.deliver b) (s.deliver b)
  | hostWrite {t : State} (idx : RegIndex) (data : Word16) (h : WriteEdge idx data s t) : MoveEdge s (.hostWrite idx data) t
  | hostRead (idx : RegIndex) : MoveEdge s (.hostRead idx) (s.hostRead idx)
  | rst : MoveEdge s .rst s.resetBlock

/-- The list of moves is complete. -/
theorem runMove_cases {m : Move} {s t : State} (h : runMove m s = .next t) : MoveEdge s m t := by
  cases m with
  | engine => exact .engine (engineStep_cases h)
  | frame => exact .frame (frameStep_run h)
  | expire => exact .expire (expireStep_cases h)
  | tick => cases h; exact .tick
  | clk =>
    rcases clockEdge_cases h with ⟨_, h⟩ | ⟨_, ht, h⟩ | rfl
    · exact .clkEngine h
    · exact .clkExpire ht h
    · exact .clkIdle
  | deliver b => cases h; exact .deliver b
  | hostWrite idx data => exact .hostWrite idx data (hostWrite_cases h)
  | hostRead idx => cases h; exact .hostRead idx
  | rst => cases h; exact .rst

/-- What the engine's single steps keep, a run of them keeps. -/
theorem EngineRun.keeps {P : State → Prop} (hP : ∀ s t, P s → EngineEdge s t → P t) {s t : State} (h : EngineRun s t)
    (hs : P s) : P t := by
  induction h with
  | refl => exact hs
  | tail _ h ih => exact hP _ _ ih h

/-- What every single step of every agent keeps, every move keeps. -/
theorem runMove_keeps {P : State → Prop} (engine : ∀ s t, P s → EngineEdge s t → P t)
    (expire : ∀ s t, P s → ExpireEdge s t → P t) (tick : ∀ s : State, P s → P s.tickDown)
    (deliver : ∀ (s : State) (b : Byte), P s → P (s.deliver b))
    (write : ∀ (idx : RegIndex) (data : Word16) (s t : State), P s → WriteEdge idx data s t → P t)
    (read : ∀ (s : State) (idx : RegIndex), P s → P (s.hostRead idx)) (reset : ∀ s : State, P s → P s.resetBlock)
    {m : Move} {s t : State} (h : runMove m s = .next t) (hs : P s) : P t := by
  cases runMove_cases h with
  | engine h => exact engine _ _ hs h
  | frame h => exact h.keeps engine hs
  | expire h => exact expire _ _ hs h
  | tick => exact tick _ hs
  | clkEngine h => exact engine _ _ hs h
  | clkExpire _ h => exact expire _ _ hs h
  | clkIdle => exact hs
  | deliver b => exact deliver _ _ hs
  | hostWrite _ _ h => exact write _ _ _ _ hs h
  | hostRead => exact read _ _ hs
  | rst => exact reset _ hs

/-- A step is a move in the state whose script has moved on. -/
theorem step_cases {s t : State} (h : step s = .next t) : MoveEdge (s.advance s.nextMove) s.nextMove t :=
  runMove_cases h

/-- No step answers a fault, from any state (R16, R266). -/
theorem step_ne_fault (s : State) (r : Fault) : step s ≠ .fault r := nomatch r

/-- No instruction answers a fault, in any state (R16, R266). -/
theorem exec_ne_fault (i : Instr) (s : State) (r : Fault) : exec i s ≠ .fault r := nomatch r

end Sys2Proof.Laws
end

