-- ==== Sys2Proof/Tests/Slice0.lean ====
section
/-!
SUPPORT. The model's own tests: well-formedness, decoding of words written out from the spec's encodings, one step of
each instruction with the result taken from the vectors of 95_test_vectors.md or from the rule named, and for each
statement with hypotheses a witness that meets them.
-/

namespace Sys2Proof.Tests

open Sys2Proof.Machine Sys2Proof.Safety

/-- The state an outcome goes on in. -/
def after : Result → Option State
  | .next s => some s
  | _ => none

/-- Reset, busy with a command, in a phase, with bytes queued. -/
def busyIn (p : Phase) (q : List Byte) : State := { State.reset with status := 0x0001#16, ph := p, rxq := q }

/-- As busyIn, with the payload 15 of the vectors S2 and S3 in TX_BUF. -/
def sending (p : Phase) (q : List Byte) : State :=
  { busyIn p q with txLen := 1#8, mem := [(0x100, 0x15#8)], op := 2#2 }

/-! Well-formedness: each check refuses an ill-formed term. -/

theorem test_wellFormed_syncSkip : (Instr.syncSkip 0x01#8).wellFormed = false := by decide
theorem test_wellFormed_hsOther_ack : (Instr.hsOther 0x06#8).wellFormed = false := by decide
theorem test_wellFormed_hsOther_nak : (Instr.hsOther 0x15#8).wellFormed = false := by decide
theorem test_wellFormed_frameReq : (Instr.frameReq 0x03#8 [0x15#8]).wellFormed = false := by decide
theorem test_wellFormed_frameRes : (Instr.frameRes 0x03#8 [0x15#8]).wellFormed = false := by decide
theorem test_wellFormed_cmdIllegal : (Instr.cmdIllegal 0x03#8).wellFormed = false := by decide
theorem test_wellFormed_some :
    (Instr.frameReq 0x03#8 [0x15#8, 0xE9#8]).wellFormed = true ∧ (Instr.hsOther 0x18#8).wellFormed = true ∧
    (Instr.cmdIllegal 0x04#8).wellFormed = true ∧ (Instr.syncSkip 0x00#8).wellFormed = true := by decide

/-! Decoding: for each constructor a word written out from its encoding in 30_encoding.md. -/

theorem test_decode_sof : decodeByte .sync 0b00000001#8 = .sof := by decide
theorem test_decode_syncSkip : decodeByte .sync 0b11111111#8 = .syncSkip 0xFF#8 := by decide
theorem test_decode_ack : decodeByte (.handshake false) 0b00000110#8 = .ack := by decide
theorem test_decode_nak : decodeByte (.handshake true) 0b00010101#8 = .nak := by decide
theorem test_decode_can : decodeByte (.handshake true) 0b00011000#8 = .can := by decide
theorem test_decode_can_disabled : decodeByte (.handshake false) 0b00011000#8 = .hsOther 0x18#8 := by decide
theorem test_decode_hsOther : decodeByte (.handshake true) 0b00000001#8 = .hsOther 0x01#8 := by decide
theorem test_decode_nop : decodeByte .command 0b00000000#8 = .nop := by decide
theorem test_decode_recv : decodeByte .command 0b00000001#8 = .recv := by decide
theorem test_decode_send : decodeByte .command 0b00000010#8 = .send := by decide
theorem test_decode_sendr : decodeByte .command 0b00000011#8 = .sendr := by decide
theorem test_decode_cmdIllegal : decodeByte .command 0b00000100#8 = .cmdIllegal 0x04#8 := by decide
/-- Vector E2, with a byte behind the frame. -/
theorem test_decode_frameReq :
    decode .wire [0x01#8, 0x03#8, 0x00#8, 0x15#8, 0xE9#8, 0x06#8] = .ok (.frameReq 0x03#8 [0x15#8, 0xE9#8], [0x06#8]) := by
  rfl
/-- The frame of vector K8b: L = 1, the direction byte is the whole body. -/
theorem test_decode_frameRes_short : decode .wire [0x01#8, 0x01#8, 0x01#8] = .ok (.frameRes 0x01#8 [], []) := by rfl
theorem test_decode_refused :
    decode .wire [0x01#8, 0x03#8, 0x00#8, 0x15#8] = .error .bodyCut ∧
    decode .wire [0x06#8, 0x03#8, 0x00#8] = .error .notStartMarker ∧
    decode .wire [0x01#8, 0x01#8, 0x02#8] = .error .noDirectionRow ∧
    decode .wire [0x01#8, 0x01#8] = .error .headerCut ∧ decode (.byte .sync) [] = .error .noByte :=
  ⟨rfl, rfl, rfl, rfl, rfl⟩

/-! Placing a word of the table after reset, and running it. -/

theorem test_place_recv : (after (step (State.reset.withFetchWord 8 0x01))).map (fun s => (s.ph, s.status)) =
    some (.rfSync, 0x0001#16) := by decide
theorem test_place_ack : (after (step (State.reset.withFetchWord 8 0x06))).map (·.ph) = some .post := by decide
theorem test_place_can : (after (step (State.reset.withFetchWord 8 0x18))).map (·.ph) = some .canAck := by decide
theorem test_place_frameRes :
    (after (step (State.reset.withFetchWord 24 0x010301))).map (fun s => (s.ph, s.rxLen, s.rxBody)) =
      some (.finish, 0x03#8, [0x01#8, 0x00#8, 0x00#8]) := by decide
theorem test_table_words :
    decodeTableWord 8 0x15 = some .nak ∧ decodeTableWord 8 0x02 = some .send ∧
    decodeTableWord 24 0x010201 = some (.frameRes 0x02#8 [0x00#8]) ∧ decodeTableWord 24 0x000100 = none :=
  ⟨rfl, rfl, rfl, rfl⟩

/-! The codec: vectors C1, C4, E1, E2, V5, V11, V12. -/

theorem test_csum : csum [] = 0xFF#8 ∧ csum [0x03#8, 0x00#8, 0x15#8] = 0xE9#8 := by decide
theorem test_encode :
    encodeFrame [] = some [0x01#8, 0x02#8, 0x00#8, 0xFD#8] ∧
    encodeFrame [0x15#8] = some [0x01#8, 0x03#8, 0x00#8, 0x15#8, 0xE9#8] := by decide
theorem test_verify : verify 0x03#8 [0x01#8, 0x15#8, 0xE9#8] = (0x01#8, false) ∧ verify 0x01#8 [0x00#8] = (0xFE#8, false) := by
  decide
theorem test_decodeBody : decodeBody 0x05#8 [0x00#8, 0x13#8] = (false, some 0x00#8, []) := by decide

/-! One step of each instruction. -/

/-- Vector H1. -/
theorem test_nop : (after (exec .nop { State.reset with status := 0x000A#16 })).map (·.status) = some 0x000A#16 := by decide
/-- Vector H4. -/
theorem test_recv : (after (exec .recv { State.reset with txLen := 254#8 })).map (fun s => (s.status, s.ph)) =
    some (0x0001#16, .rfSync) := by decide
/-- Vector H3. -/
theorem test_send_long : (after (exec .send { State.reset with txLen := 254#8 })).map (fun s => (s.status, s.ph)) =
    some (0x0200#16, .idle) := by decide
/-- R245, from the state a RECV with a checksum failure leaves. -/
theorem test_send : (after (exec .send { State.reset with status := 0x001A#16, rxLen := 3#8, rxCnt := 3#8, att := 4#8 })).map
    (fun s => (s.status, s.ph, s.op, s.rxLen, s.rxCnt, s.att)) = some (0x0001#16, .preChk, 2#2, 0#8, 0#8, 0#8) := by decide
theorem test_sendr : (after (exec .sendr State.reset)).map (fun s => (s.status, s.ph, s.op)) =
    some (0x0001#16, .preChk, 3#2) := by decide
/-- R27, U6: one byte to send, never written. -/
theorem test_send_unwritten : after (exec .send { State.reset with txLen := 1#8 }) = none := by decide
/-- Vector H5. -/
theorem test_send_busy : (after (exec .send (busyIn .rfSync []))).map (fun s => (s.status, s.ph)) =
    some (0x0401#16, .rfSync) := by decide
/-- Vector H2. -/
theorem test_cmdIllegal : (after (exec (.cmdIllegal 0x07#8) State.reset)).map (fun s => (s.status, s.ph)) =
    some (0x0200#16, .idle) := by decide
/-- R206. -/
theorem test_ack : (after (engineStep (sending .hsWait [0x06#8, 0x01#8]))).map (fun s => (s.status, s.ph, s.rxq)) =
    some (0x0005#16, .post, [0x01#8]) := by decide
/-- Vector S7. -/
theorem test_nak : (after (engineStep (sending .hsWait [0x15#8]))).map (fun s => (s.status, s.ph, s.diagOther)) =
    some (0x2001#16, .othDrain, 1#8) := by decide
/-- Vectors S12 and S10. -/
theorem test_can : (after (engineStep (sending .hsWait [0x18#8]))).map (fun s => (s.status, s.ph, s.diagCan)) =
    some (0x0801#16, .canAck, 1#8) := by decide
theorem test_can_disabled :
    (after (engineStep { sending .hsWait [0x18#8] with cfg := 0x24#8 })).map (fun s => (s.ph, s.diagCan, s.diagOther)) =
      some (.othDrain, 0#8, 1#8) := by decide
/-- Vector S16: a start marker in HS_WAIT; the counter saturates (R32). -/
theorem test_hsOther : (after (engineStep { sending .hsWait [0x01#8] with diagOther := 255#8 })).map
    (fun s => (s.ph, s.diagOther)) = some (.othDrain, 255#8) := by decide
/-- R174. -/
theorem test_sof : (after (engineStep (busyIn .rfSync [0x01#8, 0x03#8]))).map (fun s => (s.ph, s.rxq, s.tmr)) =
    some (.rfLen, [0x03#8], 100#16) := by decide
/-- Vector K17. -/
theorem test_syncSkip : (after (engineStep { busyIn .rfSync [0x55#8] with diagDesync := 255#8 })).map
    (fun s => (s.ph, s.diagDesync)) = some (.rfSync, 255#8) := by decide
/-- Vector S3: the first attempt's frame. -/
theorem test_frameReq_sent : (after (frameStep (sending .tx []))).map (fun s => (s.txLog, s.ph, s.att)) =
    some ([0x01#8, 0x03#8, 0x00#8, 0x15#8, 0xE9#8], .hsWait, 1#8) := by decide
/-- Vector V11 as a frame, with CFG.AOT = 0, which does not matter for a frame that is not truncated (R181). -/
theorem test_frameReq_read :
    (after (frameStep { busyIn .rfSync [0x01#8, 0x01#8, 0x00#8] with cfg := 0x14#8 })).map
      (fun s => (s.status, s.rxBody, s.acc, s.txLog)) = some (0x0059#16, [0x00#8], 0xFE#8, [0x06#8]) := by decide
/-- Vectors K1 and K12. -/
theorem test_frameRes : (after (frameStep (busyIn .rfSync [0x01#8, 0x03#8, 0x01#8, 0x15#8, 0xE8#8, 0x01#8]))).map
    (fun s => (s.status, s.pay, s.acc, s.txLog, s.rxq)) =
      some (0x0009#16, [0x15#8], 0x00#8, [0x06#8], [0x01#8]) := by decide
/-- Vector K8a: `01 00`, with whatever byte follows left queued. -/
theorem test_frameRes_empty : (after (frameStep (busyIn .rfSync [0x01#8, 0x00#8, 0x01#8]))).map
    (fun s => (s.status, s.rxCnt, s.acc, s.rxq, s.diagCsum)) = some (0x0059#16, 0#8, 0xFF#8, [0x01#8], 1#8) := by decide

/-! One step of the other agents. -/

/-- Vectors L15 and L14. -/
theorem test_probe_expire : (after (expireStep { sending .probeGap [] with prb := 5#6 })).map (·.ph) = some .probeTx := by decide
theorem test_probe_answered : (after (engineStep (sending .probeGap [0x06#8]))).map (fun s => (s.ph, s.rxq)) =
    some (.nextAttempt, [0x06#8]) := by decide
/-- Vectors L8, L18 and K8d. -/
theorem test_expire_not_enabled : after (expireStep (sending .hsWait [0x06#8])) = some (sending .hsWait [0x06#8]) := by decide
theorem test_body_stall : (after (expireStep { busyIn .rfBody [] with rxLen := 1#8 })).map (fun s => (s.status, s.ph)) =
    some (0x0021#16, .rfCheck) := by decide
/-- R152 with BRB = 3: the first expiry ends nothing. -/
theorem test_byteWait : (after (expireStep { busyIn .rfBody [] with rxLen := 1#8, brb := 3#8, tmr := 0#16 })).map
    (fun s => (s.ph, s.brc, s.tmr)) = some (.rfBody, 1#8, 100#16) := by decide
/-- R22: a write of CFG with a zero RETRY nibble keeps RETRY, and drops bits 7:6. -/
theorem test_write_cfg : (after (hostWrite 0x002#10 0x00D0#16 State.reset)).map (·.cfg) = some 0x14#8 := by decide
/-- Vector H6. -/
theorem test_write_busy : (after (hostWrite 0x009#10 5#16 (busyIn .rfSync []))).map (fun s => (s.txLen, s.status)) =
    some (0#8, 0x0401#16) := by decide
/-- R290, R35. -/
theorem test_reset : (after (runMove .rst (sending .tx [0x55#8]))).map (fun s => (s.ph, s.rxq, s.mem, s.cfg)) =
    some (.idle, [], [], 0x34#8) := by decide

/-! Witnesses: for each statement with hypotheses, states and operands that meet them, at the ends of their ranges. -/

/-- The payload of TX_LEN = 1 and of TX_LEN = 0 is written; one byte more is not. -/
theorem witness_CommandAccepted :
    State.reset.flag .busy = false ∧ State.reset.txLen.toNat ≤ 253 ∧ State.reset.payloadWritten = true ∧
    (sending .idle []).payloadWritten = true ∧
    ∃ t, runMove (.hostWrite 0x000#10 0xFF03#16) State.reset = .next t ∧ t.flag .busy = true :=
  ⟨rfl, by decide, rfl, rfl, _, rfl, rfl⟩

theorem witness_NopDoesNothing : State.reset.flag .busy = false ∧ (busyIn .finish []).flag .busy = true := by decide

theorem witness_LongPayloadRefused :
    State.flag { State.reset with txLen := 254#8 } .busy = false ∧ 253 < (254#8 : Byte).toNat ∧
    ¬ 253 < (253#8 : Byte).toNat := by decide

theorem witness_IllegalCommandRefused :
    4 ≤ (0x04#8 : Byte).toNat ∧ 4 ≤ (0xFF#8 : Byte).toNat ∧ State.reset.flag .busy = false ∧
    State.flag { busyIn .finish [] with status := 0x0201#16 } .ill = true ∧
    ∃ t, runMove .engine { busyIn .finish [] with status := 0x0201#16 } = .next t :=
  ⟨by decide, by decide, rfl, rfl, _, rfl⟩

theorem witness_WriteWhileBusyIgnored :
    (busyIn .rfSync []).flag .busy = true ∧ State.flag { State.reset with status := 0x0400#16 } .ovr = true ∧
    ∃ t, runMove (.hostWrite 0x000#10 1#16) { State.reset with status := 0x0400#16 } = .next t ∧ t.flag .ovr = false :=
  ⟨rfl, rfl, _, rfl, rfl⟩

theorem witness_UnwrittenPayloadRefused :
    Memory.read (State.mem { sending .idle [] with status := 0#16, txLen := 2#8 }) (0x100 + 1) = none ∧
    (∀ i, i < 1 → Memory.read (sending .idle []).mem (0x100 + i) ≠ none) ∧
    after (exec .send { sending .idle [] with status := 0#16, txLen := 2#8 }) = none ∧
    (after (exec .send { sending .idle [] with status := 0#16 })).map (·.ph) = some .preChk := by decide

theorem witness_FinishEndsCommand :
    (busyIn .finish []).ph = .finish ∧ State.reset.ph = .idle ∧ State.reset.flag .busy = false ∧
    ∃ t, runMove (.hostWrite 0x100#10 7#16) State.reset = .next t ∧ t.ph = .idle := ⟨rfl, rfl, rfl, _, rfl, rfl⟩

theorem witness_AckConfirmsDelivery :
    (sending .hsWait []).ph = .hsWait ∧ afterHandshake (busyIn .rfAck []).ph = true ∧ (busyIn .rfAck []).flag .busy = true ∧
    ∃ t, runMove .engine (busyIn .rfAck []) = .next t ∧ afterHandshake t.ph = true := ⟨rfl, rfl, rfl, _, rfl, rfl⟩

theorem witness_CancelByteTakesItsBranch :
    (sending .hsWait []).ph = .hsWait ∧ (sending .hsWait []).cfg.getLsbD 4 = true ∧
    (0x24#8 : Byte).getLsbD 4 = false := by decide

theorem witness_OtherReplyIsUnexpected :
    (sending .hsWait []).ph = .hsWait ∧ (0x15#8 : Byte) ≠ 0x06#8 ∧ (0x18#8 : Byte) ≠ 0x06#8 ∧
    ¬((0x18#8 : Byte) = 0x18#8 ∧ (0x24#8 : Byte).getLsbD 4 = true) ∧
    ¬((0x15#8 : Byte) = 0x18#8 ∧ (sending .hsWait []).cfg.getLsbD 4 = true) := by decide

theorem witness_SilenceStartsProbeFlood : (sending .hsWait []).ph = .hsWait ∧ (sending .hsWait []).rxq = [] := ⟨rfl, rfl⟩

theorem witness_PreSendClear :
    (sending .preChk [0x01#8]).ph = .preChk ∧ (sending .preDrain []).ph = .preDrain ∧ (sending .preChk []).flag .busy = true ∧
    ∃ t, runMove .engine (sending .preChk []) = .next t ∧ t.ph = .preDrain := ⟨rfl, rfl, rfl, _, rfl, rfl⟩

/-- The first byte of the frame, and its last, at index TX_LEN + 3. -/
theorem witness_TransmitsOneByte :
    (sending .tx []).txFrame = some [0x01#8, 0x03#8, 0x00#8, 0x15#8, 0xE9#8] ∧
    [0x01#8, 0x03#8, 0x00#8, 0x15#8, 0xE9#8][(sending .tx []).txi.toNat]? = some 0x01#8 ∧
    State.txFrame { sending .tx [] with txi := 4#9 } = some [0x01#8, 0x03#8, 0x00#8, 0x15#8, 0xE9#8] ∧
    [0x01#8, 0x03#8, 0x00#8, 0x15#8, 0xE9#8][(4#9 : BitVec 9).toNat]? = some 0xE9#8 ∧
    (sending .tx []).ph = .tx := by decide

theorem witness_ProbeFloodSteps :
    (sending .probeTx []).ph = .probeTx ∧ (sending .probeGap [0x06#8]).rxq ≠ [] ∧ (sending .probeGap []).rxq = [] ∧
    (32#6 : BitVec 6).toNat = 32 ∧ (31#6 : BitVec 6).toNat < 32 ∧ (sending .probeGap []).ph = .probeGap := by decide

theorem witness_CancelAndOtherBranches :
    (sending .canAck []).ph = .canAck ∧ (sending .canDrain1 []).ph = .canDrain1 ∧ (sending .canGap [0x01#8]).ph = .canGap ∧
    (sending .canDrain2 []).ph = .canDrain2 ∧ (sending .othDrain []).ph = .othDrain := by decide

/-- With CFG.RETRY = 4 of reset: one attempt is left after 3, none after 4. -/
theorem witness_RetryIsBounded :
    (sending .nextAttempt []).ph = .nextAttempt ∧ (3#8 : Byte).toNat < (sending .nextAttempt []).cfg.toNat % 16 ∧
    ¬ (4#8 : Byte).toNat < (sending .nextAttempt []).cfg.toNat % 16 := by decide

theorem witness_PostReadsIfRequested :
    (sending .post []).ph = .post ∧ (3#2 : BitVec 2).getLsbD 0 = true ∧ (sending .post []).op.getLsbD 0 = false := by decide

theorem witness_StartMarkerHunt : (busyIn .rfSync []).ph = .rfSync := rfl

theorem witness_SyncExpiryIsNoFrame : (busyIn .rfSync []).ph = .rfSync ∧ (busyIn .rfSync []).rxq = [] := ⟨rfl, rfl⟩

theorem witness_LengthByteRead :
    (busyIn .rfLen [0x00#8]).ph = .rfLen ∧ (busyIn .rfLen [0x00#8]).rxq = 0x00#8 :: [] ∧
    (busyIn .rfLen [0xFF#8]).rxq = 0xFF#8 :: [] ∧ (busyIn .rfLen []).rxq = [] ∧
    (busyIn .rfLen []).brc + 1#8 = (busyIn .rfLen []).brb := by decide

/-- The first of two body bytes, and the last of 255. -/
theorem witness_BodyByteRead :
    (busyIn .rfBody [0x55#8]).ph = .rfBody ∧ (busyIn .rfBody [0x55#8]).rxq = 0x55#8 :: [] ∧
    (0#8 : Byte).toNat < (2#8 : Byte).toNat ∧ (254#8 : Byte).toNat < (255#8 : Byte).toNat ∧
    (busyIn .rfBody []).rxq = [] ∧ (busyIn .rfBody []).brc + 1#8 = (busyIn .rfBody []).brb := by decide

theorem witness_ByteWaitBudget :
    ((busyIn .rfBody []).ph = .rfLen ∨ (busyIn .rfBody []).ph = .rfBody) ∧ (busyIn .rfBody []).rxq = [] ∧
    (busyIn .rfBody []).brc + 1#8 = (busyIn .rfBody []).brb ∧ (253#8 : Byte) + 1#8 ≠ 255#8 ∧ (254#8 : Byte) + 1#8 = 255#8 := by
  decide

theorem witness_CheckSetsFlags : (busyIn .rfCheck []).ph = .rfCheck := rfl

theorem witness_FrameIsAcknowledged : (busyIn .rfAck []).ph = .rfAck := rfl

theorem witness_FrameReqTransmitsToItsEnd :
    (Instr.frameReq 0x03#8 [0x15#8, 0xE9#8]).wellFormed = true ∧ (sending .tx []).ph = .tx ∧
    (sending .tx []).txi.toNat < (encode (.frameReq 0x03#8 [0x15#8, 0xE9#8])).length ∧
    (4#9 : BitVec 9).toNat < (encode (.frameReq 0x03#8 [0x15#8, 0xE9#8])).length := by decide

/-- L = 0, L = 1 and L = 3. -/
theorem witness_WholeFrameIsRead :
    ([] : List Byte).length = (0x00#8 : Byte).toNat - 1 ∧ ([] : List Byte).length = (0x01#8 : Byte).toNat - 1 ∧
    [0x15#8, 0xE9#8].length = (0x03#8 : Byte).toNat - 1 ∧ (busyIn .rfSync []).ph = .rfSync ∧
    (Instr.frameRes 0x01#8 [] = .frameReq 0x01#8 [] ∧ (0x01#8 : Byte) = 0x00#8 ∨
      Instr.frameRes 0x01#8 [] = .frameRes 0x01#8 [] ∧ (0x01#8 : Byte) = 0x01#8) := by decide

theorem witness_DirectionIsNotExamined :
    [0x15#8, 0xE9#8].length = (0x03#8 : Byte).toNat - 1 ∧ (busyIn .rfSync []).ph = .rfSync := by decide

theorem witness_FrameMoveIsEngineSteps :
    (sending .tx []).ph = .tx ∧ (sending .tx []).txFrame = some [0x01#8, 0x03#8, 0x00#8, 0x15#8, 0xE9#8] ∧
    (sending .tx []).txi.toNat < 5 ∧ (busyIn .rfSync []).ph = .rfSync ∧
    decode .wire (busyIn .rfSync [0x01#8, 0x01#8, 0x01#8, 0x55#8]).rxq = .ok (.frameRes 0x01#8 [], [0x55#8]) ∧
    (busyIn .rfSync [0x01#8, 0x01#8, 0x01#8, 0x55#8]).rxq[1]? = some 0x01#8 :=
  ⟨rfl, by decide, by decide, rfl, rfl, rfl⟩

theorem witness_EncodedFrameIsReadBack :
    encodeFrame [] = some [0x01#8, 0x02#8, 0x00#8, 0xFD#8] ∧
    (busyIn .rfSync [0x01#8, 0x02#8, 0x00#8, 0xFD#8, 0x18#8]).rxq = [0x01#8, 0x02#8, 0x00#8, 0xFD#8] ++ [0x18#8] ∧
    (busyIn .rfSync []).ph = .rfSync ∧ (busyIn .rfSync []).flag .cse = false ∧ (busyIn .rfSync []).flag .trn = false ∧
    (busyIn .rfSync []).flag .sht = false := by decide

theorem witness_WireRowsNeedTheirPhase :
    (busyIn .rfLen []).ph ≠ .rfSync ∧ (busyIn .rfLen []).ph ≠ .tx ∧ (busyIn .rfLen []).ph ≠ .hsWait := by decide

/-- A queue is below its capacity or not, whatever the capacity is. -/
theorem witness_DeliverAppendsOrOverflows :
    Config.rxFifoDepthPred = none ∨
    ∃ d, Config.rxFifoDepthPred = some d ∧ (busyIn .idle []).rxq.length < d + 1 ∧
      ¬ (busyIn .idle (List.replicate (d + 1) 0x55#8)).rxq.length < d + 1 := by
  cases h : Config.rxFifoDepthPred with
  | none => exact .inl rfl
  | some d => exact .inr ⟨d, rfl, by simp [busyIn], by simp [busyIn]⟩

theorem witness_OneOfEngineAndTimeIsEnabled :
    (busyIn .rfBody []).waiting = true ∧ (busyIn .rfBody []).ph ≠ .canGap ∧ (busyIn .canGap []).ph = .canGap ∧
    State.reset.ph = .idle ∧ (busyIn .tx []).waiting = false ∧ (busyIn .tx []).ph ≠ .idle ∧
    (busyIn .rfBody []).engineEnabled = false ∧ (busyIn .rfBody [0x55#8]).expireEnabled = false := by decide

theorem witness_WaitStartsAfresh :
    (∃ t, runMove .engine (busyIn .rfSync [0x55#8]) = .next t ∧ t.rxq.length < 1 ∧ t.ph = .rfSync) ∧
    (∃ t, runMove .engine (busyIn .rfSync [0x01#8]) = .next t ∧ t.ph ≠ .rfSync ∧ t.ph = .rfLen) ∧
    (∃ t, runMove .engine (busyIn .rfLen [0x01#8]) = .next t ∧ t.ph = .rfBody) ∧
    (∃ t, runMove .engine { sending .tx [] with txi := 4#9 } = .next t ∧ t.ph = .hsWait) ∧
    (∃ t, runMove .engine (sending .probeTx []) = .next t ∧ t.ph = .probeGap) ∧
    (∃ t, runMove .engine (sending .canDrain1 []) = .next t ∧ t.ph = .canGap) :=
  ⟨⟨_, rfl, by decide, rfl⟩, ⟨_, rfl, by decide, rfl⟩, ⟨_, rfl, rfl⟩, ⟨_, rfl, rfl⟩, ⟨_, rfl, rfl⟩, ⟨_, rfl, rfl⟩⟩

theorem witness_ClockEdgeRefinesUntimed :
    (busyIn .rfSync [0x01#8]).engineEnabled = true ∧ (busyIn .rfSync []).expireEnabled = true ∧
    (busyIn .rfSync []).tmr = 0#16 ∧ State.expireEnabled { busyIn .rfSync [] with tmr := 1#16 } = true ∧
    (busyIn .rfSync []).waiting = true ∧ (busyIn .tx []).waiting = false := by decide

theorem witness_HostWritesStore :
    State.reset.flag .busy = false ∧
    ((0x001#10 : RegIndex).toNat = 1 ∨ (10 ≤ (0x001#10 : RegIndex).toNat ∧ (0x001#10 : RegIndex).toNat < 0x100 ∧
      (0x001#10 : RegIndex).toNat ≠ 0x015) ∨ 0x1FD ≤ (0x001#10 : RegIndex).toNat) ∧
    10 ≤ (0x0FF#10 : RegIndex).toNat ∧ (0x0FF#10 : RegIndex).toNat < 0x100 ∧ 0x1FD ≤ (0x1FD#10 : RegIndex).toNat ∧
    0x1FD ≤ (0x3FF#10 : RegIndex).toNat := by decide

theorem witness_HostReadsRegisters :
    Memory.read (sending .idle []).mem (0x100 + 0) = some 0x15#8 ∧
    Memory.read [(0x2FE, 0xFE#8)] (0x200 + 254) = some 0xFE#8 ∧ 254 < (255#8 : Byte).toNat ∧
    (0x1FD#10 : RegIndex).toNat = 0x1FD ∧ 0x2FF ≤ (0x2FF#10 : RegIndex).toNat := by decide

theorem witness_CsumLaws :
    [0x03#8, 0x00#8].Perm [0x00#8, 0x03#8] ∧ 1 < [0x03#8, 0x00#8].length ∧
    [0x40#8, 0x40#8].length = [0x03#8, 0x00#8].length := by decide

theorem witness_EncodeShape :
    ([] : List Byte).length ≤ 253 ∧ (List.replicate 253 0xAA#8).length ≤ 253 ∧
    253 < (List.replicate 254 0xAA#8).length ∧ ∃ F, encodeFrame (List.replicate 253 0xAA#8) = some F :=
  ⟨Nat.zero_le _, (List.length_replicate).le, Nat.le_of_eq (List.length_replicate).symm, _,
    if_pos (List.length_replicate).le⟩

theorem witness_CodecRoundTrip : (List.replicate 253 0xAA#8).length ≤ 253 := (List.length_replicate).le

/-- Vectors V2, V6 and V7. -/
theorem witness_VerifyDetectsMasks :
    (verify 0x03#8 [0x01#8, 0x15#8, 0xE8#8]).2 = true ∧ [0x00#8, 0x40#8, 0x40#8].length = 3 ∧
    (0x40#8 : Byte) ≠ 0x00#8 ∧ [0x01#8, 0x15#8, 0xE8#8].Perm [0x01#8, 0xE8#8, 0x15#8] := by decide

theorem witness_EncodedFrameIsFrameReq : encodeFrame [0x15#8] = some [0x01#8, 0x03#8, 0x00#8, 0x15#8, 0xE9#8] := by decide

theorem witness_DecodeOfEncode :
    (Instr.hsOther 0x18#8).wellFormed = true ∧ (Instr.hsOther 0x18#8).inContext (.byte (.handshake false)) = true ∧
    (Instr.frameReq 0x00#8 []).wellFormed = true ∧ (Instr.frameReq 0x00#8 []).inContext .wire = true ∧
    (Instr.cmdIllegal 0x04#8).wellFormed = true ∧ (Instr.cmdIllegal 0x04#8).inContext (.byte .command) = true := by decide

theorem witness_EncodeOfDecode :
    decode (.byte (.handshake true)) [0x18#8, 0x01#8] = .ok (.can, [0x01#8]) ∧
    decode .wire [0x01#8, 0x00#8, 0x01#8] = .ok (.frameRes 0x00#8 [], []) := ⟨rfl, rfl⟩

theorem witness_StepRunsTheDecodedInstruction :
    State.reset.script = [] ∧ decode (.byte .sync) [0x01#8, 0x03#8] = .ok (.sof, [0x03#8]) ∧
    decode (.byte (.handshake ((sending .hsWait []).cfg.getLsbD 4))) [0x18#8] = .ok (.can, []) ∧
    decode (.byte .command) [(0xFF03#16 : Word16).setWidth 8] = .ok (.sendr, []) ∧
    decode .wire [0x01#8, 0x01#8, 0x01#8, 0x55#8] = .ok (.frameRes 0x01#8 [], [0x55#8]) ∧
    (State.advance { sending .tx [] with script := [.frame] } .frame).txFrame =
      some [0x01#8, 0x03#8, 0x00#8, 0x15#8, 0xE9#8] ∧
    decode .wire [0x01#8, 0x03#8, 0x00#8, 0x15#8, 0xE9#8] = .ok (.frameReq 0x03#8 [0x15#8, 0xE9#8], []) :=
  ⟨rfl, rfl, rfl, rfl, rfl, by decide, rfl⟩

/-- A state in the middle of a transmission meets the invariant of the machine. -/
theorem sending_tx_inv : Inv { sending .tx [] with script := [.engine], txi := 4#9, att := 1#8 } where
  memWf := by decide
  statusReserved := by decide
  cfgReserved := by decide
  retryPos := by decide
  brbPos := by decide
  idleIff := by decide
  notDone := by decide
  attLe := by decide
  attBound := by decide
  cntLe := by decide
  bodyWritten := by decide
  sendOp := by decide
  sendPayload := by decide
  txRange := by decide
  txBegin := by decide
  txCounted := by decide
  preAttempt := by decide
  attPos := by decide
  probeLe := by decide
  probeLeft := by decide
  bodyLeft := by decide
  budgetLeft := by decide
  queue := by simp only [queueFits]; split <;> simp [sending, busyIn]

theorem sending_tx_readInv : ReadInv { sending .tx [] with script := [.engine], txi := 4#9, att := 1#8 } where
  untouched := by decide
  reading := by decide
  collecting := by decide
  complete := by decide
  truncated := by decide
  checked := by decide
  verdict := by decide
  oneReason := by decide

/-- A frame read and checked (vector K8b), before its acknowledgment, meets both invariants. -/
def checked : State :=
  { busyIn .rfAck [] with
    status := 0x0049#16, script := [.engine], op := 1#2, rxLen := 1#8, rxCnt := 1#8, mem := [(0x200, 0xFE#8)] }

theorem checked_inv : Inv checked where
  memWf := by decide
  statusReserved := by decide
  cfgReserved := by decide
  retryPos := by decide
  brbPos := by decide
  idleIff := by decide
  notDone := by decide
  attLe := by decide
  attBound := by decide
  cntLe := by decide
  bodyWritten := by decide
  sendOp := by decide
  sendPayload := by decide
  txRange := by decide
  txBegin := by decide
  txCounted := by decide
  preAttempt := by decide
  attPos := by decide
  probeLe := by decide
  probeLeft := by decide
  bodyLeft := by decide
  budgetLeft := by decide
  queue := by simp only [queueFits]; split <;> simp [checked, busyIn]

theorem checked_readInv : ReadInv checked where
  untouched := by decide
  reading := by decide
  collecting := by decide
  complete := by decide
  truncated := by decide
  checked := by decide
  verdict := by decide
  oneReason := by decide

/-- A body in progress meets the invariant of the machine. -/
theorem reading_inv : Inv { busyIn .rfBody [0x55#8] with rxLen := 1#8 } where
  memWf := by decide
  statusReserved := by decide
  cfgReserved := by decide
  retryPos := by decide
  brbPos := by decide
  idleIff := by decide
  notDone := by decide
  attLe := by decide
  attBound := by decide
  cntLe := by decide
  bodyWritten := by decide
  sendOp := by decide
  sendPayload := by decide
  txRange := by decide
  txBegin := by decide
  txCounted := by decide
  preAttempt := by decide
  attPos := by decide
  probeLe := by decide
  probeLeft := by decide
  bodyLeft := by decide
  budgetLeft := by decide
  queue := by simp only [queueFits]; split <;> simp [busyIn]

/-- The start of a send meets the invariant of the machine. -/
theorem preChk_inv : Inv (sending .preChk []) where
  memWf := by decide
  statusReserved := by decide
  cfgReserved := by decide
  retryPos := by decide
  brbPos := by decide
  idleIff := by decide
  notDone := by decide
  attLe := by decide
  attBound := by decide
  cntLe := by decide
  bodyWritten := by decide
  sendOp := by decide
  sendPayload := by decide
  txRange := by decide
  txBegin := by decide
  txCounted := by decide
  preAttempt := by decide
  attPos := by decide
  probeLe := by decide
  probeLeft := by decide
  bodyLeft := by decide
  budgetLeft := by decide
  queue := by simp only [queueFits]; split <;> simp [sending, busyIn]

theorem witness_StepKeepsInv : ∃ s t, Inv s ∧ step s = .next t ∧ t.ph = .hsWait := ⟨_, _, sending_tx_inv, rfl, rfl⟩

theorem witness_NothingTraps :
    (∃ s t, Inv s ∧ step s = .next t) ∧
    (after (step { State.reset with txLen := 1#8, script := [.hostWrite 0x000#10 3#16] })) = none :=
  ⟨⟨_, _, checked_inv, rfl⟩, by decide⟩

theorem witness_StepKeepsReadInv :
    (∃ s t, Inv s ∧ ReadInv s ∧ step s = .next t ∧ t.ph = .finish ∧ t.flag .rxf = true) ∧
    (∃ s t, Inv s ∧ ReadInv s ∧ step s = .next t ∧ t.ph = .hsWait) :=
  ⟨⟨_, _, checked_inv, checked_readInv, rfl, rfl, rfl⟩, ⟨_, _, sending_tx_inv, sending_tx_readInv, rfl, rfl⟩⟩

theorem witness_ReceiveFlagCombinations :
    Inv checked ∧ ReadInv checked ∧ checked.flag .rxf = true ∧ checked.flag .sht = true ∧ checked.flag .cse = false :=
  ⟨checked_inv, checked_readInv, rfl, rfl, rfl⟩

theorem witness_OnlyAcksAndFramesAreSent :
    ∃ s t, Inv s ∧ runMove .engine s = .next t ∧ Move.engine ≠ .rst ∧ s.ph = .tx ∧ t.txLog = [0xE9#8] :=
  ⟨_, _, sending_tx_inv, rfl, by decide, rfl, by decide⟩

theorem witness_FlagsAreSticky :
    ∃ t, runMove .engine checked = .next t ∧ Flag.rxf ≠ .busy ∧ checked.flag .rxf = true := ⟨_, rfl, by decide, rfl⟩

theorem witness_CountersOnlyRise :
    (∃ t, runMove .engine (busyIn .rfSync [0x55#8]) = .next t ∧ t.diagDesync = 1#8) ∧ Move.engine ≠ .rst ∧
    (∀ data, ¬(Move.engine = .hostWrite 0x015#10 data ∧ (busyIn .rfSync [0x55#8]).flag .busy = false)) :=
  ⟨⟨_, rfl, rfl⟩, by decide, fun _ h => by cases h.1⟩

theorem witness_OnlyAckConfirms :
    ∃ t, runMove .engine (sending .hsWait [0x06#8]) = .next t ∧ (sending .hsWait [0x06#8]).flag .txc = false ∧
      t.flag .txc = true := ⟨_, rfl, rfl, rfl⟩

theorem witness_PayloadIsStableWhileBusy :
    ∃ t, runMove (.hostWrite 0x100#10 7#16) (sending .tx []) = .next t ∧ (sending .tx []).flag .busy = true ∧
      Move.hostWrite 0x100#10 7#16 ≠ .rst ∧ 0x100 ≤ 0x1FC ∧ 0x1FC < 0x1FD := ⟨_, rfl, rfl, by decide, by decide, by decide⟩

theorem witness_OnlyLinkFillsTheQueue :
    (∃ t, runMove .engine (busyIn .rfSync [0x55#8]) = .next t ∧ t.rxq = []) ∧ (∀ b, Move.engine ≠ .deliver b) ∧
    ∃ t, runMove .expire (busyIn .rfSync []) = .next t :=
  ⟨⟨_, rfl, rfl⟩, by simp, _, rfl⟩

theorem witness_SendPhasesAreBounded :
    (∃ s t, Inv s ∧ sendPhase s.ph = true ∧ runMove .engine s = .next t ∧ s.engineEnabled = true) ∧
    Inv (sending .preChk []) ∧ (sending .preChk []).ph = .preChk :=
  ⟨⟨_, _, sending_tx_inv, rfl, rfl, rfl⟩, preChk_inv, rfl⟩

theorem witness_ReadAfterMarkerIsBounded :
    (∃ s t, Inv s ∧ s.ph = .rfBody ∧ runMove .engine s = .next t ∧ s.engineEnabled = true) ∧
    ∃ s t, Inv s ∧ s.ph = .rfAck ∧ runMove .engine s = .next t ∧ s.engineEnabled = true :=
  ⟨⟨_, _, reading_inv, rfl, rfl, rfl⟩, _, _, checked_inv, rfl, rfl, rfl⟩

end Sys2Proof.Tests
end

section
/-!
PROOFS. The scope of the machine (00_scope.md): what the next move is, and that wherever a move takes a byte, a write to
CMD or a whole frame, the step is `exec` of the decoded instruction. First one lemma per agent about its own step, in
any state; then what `step` adds to it, the script that moves on.
-/

namespace Sys2Proof.Proofs

open Sys2Proof.Machine Sys2Proof.Laws

/-- One byte decodes to its row, and what is left is the rest of the bytes (R97, R110). -/
theorem decode_byte_eq_ok_iff {c : ByteContext} {bytes q : List Byte} {i : Instr} :
    decode (.byte c) bytes = .ok (i, q) ↔ ∃ b, bytes = b :: q ∧ decodeByte c b = i := by
  cases bytes with
  | nil => simp [decode]
  | cons b rest => simp [decode, and_comm]

/-- In RF_SYNC the engine runs the instruction at the head of the queue, its byte removed (R97, R174). -/
theorem engineStep_rfSync {s : State} {i : Instr} {q : List Byte} (hp : s.ph = .rfSync)
    (hd : decode (.byte .sync) s.rxq = .ok (i, q)) : engineStep s = exec i { s with rxq := q } := by
  obtain ⟨b, hq, rfl⟩ := decode_byte_eq_ok_iff.mp hd
  simp [engineStep, hp, consumeHead_cons hq, consume]

/-- In HS_WAIT the engine runs the instruction at the head of the queue, its byte removed (R97, R206 to R208). -/
theorem engineStep_hsWait {s : State} {i : Instr} {q : List Byte} (hp : s.ph = .hsWait)
    (hd : decode (.byte (.handshake s.canEn)) s.rxq = .ok (i, q)) : engineStep s = exec i { s with rxq := q } := by
  obtain ⟨b, hq, rfl⟩ := decode_byte_eq_ok_iff.mp hd
  simp [engineStep, hp, consumeHead_cons hq, consume, State.canEn]

/-- A host write to CMD runs the instruction its data decodes to, busy or not (R244). -/
theorem hostWrite_cmd {s : State} {data : Word16} {i : Instr}
    (hd : decode (.byte .command) [data.setWidth 8] = .ok (i, [])) : hostWrite 0x000#10 data s = exec i s := by
  obtain ⟨_, hb, rfl⟩ := decode_byte_eq_ok_iff.mp hd
  cases hb
  simp [hostWrite, cmdIndex]

theorem frameStep_of_fetchFrame {s t : State} {i : Instr} (h : fetchFrame s = some (i, t)) :
    frameStep s = exec i t := by
  simp [frameStep, h]

/-- In RF_SYNC a frame row at the head of the queue is fetched with its `L + 2` bytes (R95, R170; log 9). -/
theorem fetchFrame_rfSync {s : State} {i : Instr} {tail : List Byte} {len : Byte} (hp : s.ph = .rfSync)
    (hd : decode .wire s.rxq = .ok (i, tail)) (hlen : s.rxq[1]? = some len) :
    fetchFrame s = some (i, { s with rxq := s.rxq.drop (len.toNat + 2) }) := by
  obtain ⟨len', dir, rest, hq, -, hi⟩ := decodeWire_ok hd
  have hlen' : len' = len := by simpa [hq] using hlen
  subst hlen'
  obtain ⟨rfl, -⟩ | ⟨rfl, -⟩ := hi
  · simp [fetchFrame, hp, hd]
  · simp [fetchFrame, hp, hd]

/-- In TX the frame of the command being sent is fetched, and nothing leaves the queue (R203; log 9). -/
theorem fetchFrame_tx {s : State} {i : Instr} {F tail : List Byte} (hp : s.ph = .tx) (hF : s.txFrame = some F)
    (hd : decode .wire F = .ok (i, tail)) : fetchFrame s = some (i, s) := by
  simp [fetchFrame, hp, hF, hd]

theorem nextMove_of_script_nil {s : State} (h : s.script = []) : s.nextMove = Config.freeMove s.now := by
  simp [State.nextMove, h]

theorem nextMove_of_script_cons {s : State} {m : Move} {ms : List Move} (h : s.script = m :: ms) :
    s.nextMove = m := by
  simp [State.nextMove, h]

theorem advance_of_script_cons {s : State} {m : Move} {ms : List Move} (h : s.script = m :: ms) :
    s.advance m = { s with script := ms, now := s.now + 1, epoch := (s.advance m).epoch } := by
  simp [State.advance, h]

/-- A step with a script runs the script's first move in the state whose script has moved on (R13; log 1, log 2). -/
theorem step_of_script_cons {s : State} {m : Move} {ms : List Move} (h : s.script = m :: ms) :
    step s = runMove m { s with script := ms, now := s.now + 1, epoch := (s.advance m).epoch } := by
  rw [step, nextMove_of_script_cons h, ← advance_of_script_cons h]

/-- Settles O46: the two forms of the next move, then one agent's lemma for each way an instruction is fetched. -/
theorem stepRunsTheDecodedInstruction : Obligations.StepRunsTheDecodedInstruction := by
  refine ⟨fun s h => ?nextFree, fun s m ms h => ⟨?nextOfScript, advance_of_script_cons h⟩,
    fun s ms i q h hp hd => (step_of_script_cons h).trans (engineStep_rfSync hp hd),
    fun s ms i q h hp hd => (step_of_script_cons h).trans (engineStep_hsWait hp hd),
    fun s ms i data h hd => (step_of_script_cons h).trans (hostWrite_cmd hd),
    fun s ms i tail len h hp hd hlen =>
      (step_of_script_cons h).trans (frameStep_of_fetchFrame (fetchFrame_rfSync hp hd hlen)),
    fun s ms i F h hp hF hd => ?frameSent⟩
  case nextFree => rw [step, nextMove_of_script_nil h]
  case nextOfScript => rw [step, nextMove_of_script_cons h]
  case frameSent =>
    rw [advance_of_script_cons h] at hF
    exact (step_of_script_cons h).trans (frameStep_of_fetchFrame (fetchFrame_tx hp hF hd))

end Sys2Proof.Proofs
end

section
/-!
PROOFS. Two more lists of what an agent can do, beside those of Sys2Proof/Laws/Moves.lean: what a host write stores, and
how the move over a whole frame ends (a run of the engine's single steps does not say how many bytes it counts).
-/

namespace Sys2Proof.Proofs

open Sys2Proof.Machine Sys2Proof.Laws

/-- Every way a host write to another register than CMD can end while idle (R249). -/
inductive StoreEdge (idx : RegIndex) (s : State) : State → Prop
  | cfg (w : Byte) : StoreEdge idx s { s with cfg := cfgWritten s.cfg w }
  | timing (timeout tHs tByte tPgap tDgap : Word16) :
      StoreEdge idx s { s with timeout := timeout, tHs := tHs, tByte := tByte, tPgap := tPgap, tDgap := tDgap }
  | brb (w : Byte) (hw : w ≠ 0#8) : StoreEdge idx s { s with brb := w }
  | txLen (w : Byte) : StoreEdge idx s { s with txLen := w }
  | clearDiag (hi : idx = 0x015#10) : StoreEdge idx s s.clearDiag
  | txBuf (i : Nat) (w : Byte) (hi : i < txBufSize) : StoreEdge idx s (s.writeBuf (txBufBase + i) w)
  | nothing : StoreEdge idx s s

/-- The list is complete. -/
theorem store_cases (idx : RegIndex) (data : Word16) (s : State) : StoreEdge idx s (s.store idx data) := by
  unfold State.store
  refine iteInduction (fun _ => .cfg _) fun _ => ?_
  refine iteInduction (fun _ => .timing data _ _ _ _) fun _ => ?_
  refine iteInduction (fun _ => .timing _ data _ _ _) fun _ => ?_
  refine iteInduction (fun _ => .timing _ _ data _ _) fun _ => ?_
  refine iteInduction (fun _ => .timing _ _ _ data _) fun _ => ?_
  refine iteInduction (fun _ => .timing _ _ _ _ data) fun _ => ?_
  refine iteInduction (fun _ => ?brb) fun _ => ?_
  case brb =>
    split
    · exact .nothing
    · rename_i hne; exact .brb _ hne
  refine iteInduction (fun _ => .txLen _) fun _ => ?_
  refine iteInduction (fun hdiag => .clearDiag (BitVec.eq_of_toNat_eq hdiag)) fun _ => ?_
  refine iteInduction (fun hbuf => ?txBuf) fun _ => .nothing
  case txBuf =>
    obtain ⟨i, hi⟩ := Nat.exists_eq_add_of_le hbuf.1
    rw [hi]
    exact .txBuf i _ (by omega)

/-- Every way the move over a whole frame can end: there is none, the rest of the command's frame goes out, or a frame
that stands whole at the head of the queue is read (R170, R203; log 9). -/
inductive FrameEdge (s : State) : State → Prop
  | nothing : FrameEdge s s
  | sent (h : s.ph = .tx) (F : List Byte) (hF : s.txFrame = some F) (hlt : s.txi.toNat < F.length) :
      FrameEdge s (transmitFrom F (F.length - s.txi.toNat) s)
  | read (h : s.ph = .rfSync) (len dir : Byte) (rest tail : List Byte) (hq : s.rxq = 0x01#8 :: len :: dir :: rest ++ tail)
      (hl : rest.length = len.toNat - 1) :
      FrameEdge s (State.readWhole { s with rxq := s.rxq.drop (len.toNat + 2) } (wireBytes len dir rest))

theorem transmitFrame_cases {F : List Byte} {s t : State} (h : transmitFrame F s = .next t) :
    s.txi.toNat < F.length ∧ t = transmitFrom F (F.length - s.txi.toNat) s := by
  simp only [transmitFrame] at h
  split at h
  · rename_i hlt; cases h; exact ⟨hlt, rfl⟩
  · cases h

/-- Where there is no whole frame, nothing changes (log 9). -/
theorem frameEdge_of_fetchFrame_none {s t : State} (hf : fetchFrame s = none) (h : frameStep s = .next t) :
    FrameEdge s t := by
  simp only [frameStep, hf] at h
  cases h
  exact .nothing

theorem frameEdge_tx {s t : State} (hp : s.ph = .tx) (h : frameStep s = .next t) : FrameEdge s t := by
  cases hF : s.txFrame with
  | none => exact frameEdge_of_fetchFrame_none (by simp [fetchFrame, hp, hF]) h
  | some F =>
    obtain ⟨len, rest, hd, he⟩ := decodeWire_txFrame hF
    rw [frameStep_of_fetchFrame (fetchFrame_tx hp hF hd)] at h
    have hx : transmitFrame F s = .next t := by simpa [exec, execFrameReq, hp, he] using h
    obtain ⟨hlt, rfl⟩ := transmitFrame_cases hx
    exact .sent hp F hF hlt

theorem frameEdge_rfSync {s t : State} (hp : s.ph = .rfSync) (h : frameStep s = .next t) : FrameEdge s t := by
  cases hd : decode .wire s.rxq with
  | error e => exact frameEdge_of_fetchFrame_none (by simp [fetchFrame, hp, hd]) h
  | ok r =>
    obtain ⟨i, tail⟩ := r
    obtain ⟨len, dir, rest, hq, hl, hi⟩ := decodeWire_ok hd
    rw [frameStep_of_fetchFrame (fetchFrame_rfSync (len := len) hp hd (by simp [hq]))] at h
    obtain ⟨rfl, rfl⟩ | ⟨rfl, rfl⟩ := hi
    · rw [exec_frameReq_rfSync hp] at h; cases h; exact .read hp _ _ _ _ hq hl
    · rw [exec_frameRes_rfSync hp] at h; cases h; exact .read hp _ _ _ _ hq hl

/-- The list is complete. -/
theorem frameStep_cases {s t : State} (h : frameStep s = .next t) : FrameEdge s t := by
  by_cases htx : s.ph = .tx
  · exact frameEdge_tx htx h
  by_cases hsync : s.ph = .rfSync
  · exact frameEdge_rfSync hsync h
  exact frameEdge_of_fetchFrame_none (by simp only [fetchFrame]) h

end Sys2Proof.Proofs
end

section
/-!
PROOFS. The invariant of the machine (10_state.md): it is a part that speaks of no phase, `Ranges`, together with one
clause for the phase the engine is in, `PhaseOk`. An operation that leaves the phase keeps `Inv` field by field; one
that moves to a phase keeps `Ranges` and meets the clause of the phase it enters. A step of any agent is one of those
operations.
-/

namespace Sys2Proof.Proofs

open Sys2Proof.Machine Sys2Proof.Safety Sys2Proof.Laws

/-- The part of `Inv` that does not speak of the phase. -/
structure Ranges (s : State) : Prop where
  memWf : Memory.wf s.mem
  statusReserved : s.status.getLsbD 15 = false
  cfgReserved : s.cfg.toNat < 64
  retryPos : 1 ≤ s.retry
  brbPos : s.brb ≠ 0#8
  notDone : s.flag .busy = true → s.flag .done = false
  attLe : s.att.toNat ≤ 15
  attBound : s.flag .busy = true → s.att.toNat ≤ s.retry
  cntLe : s.rxCnt.toNat ≤ s.rxLen.toNat
  bodyWritten : ∀ i < s.rxCnt.toNat, (Memory.read s.mem (rxBufBase + i)).isSome = true
  probeLe : s.prb.toNat ≤ 32
  queue : queueFits s

/-- A command that sends is running, with a legal payload, all written (R27, R245, R247). -/
structure Sending (s : State) : Prop where
  busy : s.flag .busy = true
  op : s.op.getLsbD 1 = true
  len : s.txLen.toNat ≤ 253
  written : s.payloadWritten = true

/-- A command that sends is running and its first transmission has begun (R203, R220 a). -/
structure Attempted (s : State) : Prop extends Sending s where
  attPos : 1 ≤ s.att.toNat

/-- What `Inv` says of a state in phase `p`. -/
def PhaseOk (s : State) : Phase → Prop
  | .idle => s.flag .busy = false
  | .preChk | .preDrain => Sending s ∧ s.att = 0#8
  | .tx => Sending s ∧ s.txi.toNat ≤ s.txLen.toNat + 3 ∧ (s.txi = 0#9 → s.att.toNat < s.retry) ∧
      (s.txi ≠ 0#9 → 1 ≤ s.att.toNat)
  | .probeTx => Attempted s ∧ s.prb.toNat < 32
  | .hsWait | .probeGap | .canAck | .canDrain1 | .canGap | .canDrain2 | .othDrain | .nextAttempt | .post => Attempted s
  | .rfLen => s.flag .busy = true ∧ s.brc.toNat < s.brb.toNat
  | .rfBody => s.flag .busy = true ∧ s.brc.toNat < s.brb.toNat ∧ s.rxCnt.toNat < s.rxLen.toNat
  | .rfSync | .rfCheck | .rfAck | .finish => s.flag .busy = true

theorem ranges_of_inv {s : State} (hi : Inv s) : Ranges s := { hi with }

theorem busy_of_inv {s : State} (hi : Inv s) (h : s.ph ≠ .idle) : s.flag .busy = true := by
  simpa using mt hi.idleIff.mpr h

theorem sending_of_inv {s : State} (hi : Inv s) (h : sendPhase s.ph = true) : Sending s where
  busy := busy_of_inv hi (by intro e; simp [e, sendPhase] at h)
  op := hi.sendOp h
  len := (hi.sendPayload h).1
  written := (hi.sendPayload h).2

theorem attempted_of_inv {s : State} (hi : Inv s) (h : attemptPhase s.ph = true) : Attempted s where
  toSending := sending_of_inv hi (by revert h; cases s.ph <;> simp [attemptPhase, sendPhase])
  attPos := hi.attPos h

theorem phaseOk_of_inv {s : State} {p : Phase} (hi : Inv s) (h : s.ph = p) : PhaseOk s p := by
  have busy : p ≠ .idle → s.flag .busy = true := fun hp => busy_of_inv hi (h ▸ hp)
  have sending : sendPhase p = true → Sending s := fun hp => sending_of_inv hi (h ▸ hp)
  have attempted : attemptPhase p = true → Attempted s := fun hp => attempted_of_inv hi (h ▸ hp)
  cases p with
  | idle => exact hi.idleIff.mp h
  | preChk => exact ⟨sending rfl, hi.preAttempt (.inl h)⟩
  | preDrain => exact ⟨sending rfl, hi.preAttempt (.inr h)⟩
  | tx => exact ⟨sending rfl, hi.txRange h, hi.txBegin h, hi.txCounted h⟩
  | probeTx => exact ⟨attempted rfl, hi.probeLeft h⟩
  | hsWait | probeGap | canAck | canDrain1 | canGap | canDrain2 | othDrain | nextAttempt | post => exact attempted rfl
  | rfLen => exact ⟨busy nofun, hi.budgetLeft (.inl h)⟩
  | rfBody => exact ⟨busy nofun, hi.budgetLeft (.inr h), hi.bodyLeft h⟩
  | rfSync | rfCheck | rfAck | finish => exact busy nofun

theorem sending_of_phaseOk {s : State} {p : Phase} (hp : PhaseOk s p) (h : sendPhase p = true) : Sending s := by
  cases p with
  | preChk | preDrain | tx => exact hp.1
  | probeTx => exact hp.1.toSending
  | hsWait | probeGap | canAck | canDrain1 | canGap | canDrain2 | othDrain | nextAttempt | post => exact hp.toSending
  | idle | rfSync | rfLen | rfBody | rfCheck | rfAck | finish => cases h

theorem attempted_of_phaseOk {s : State} {p : Phase} (hp : PhaseOk s p) (h : attemptPhase p = true) : Attempted s := by
  cases p with
  | probeTx => exact hp.1
  | hsWait | probeGap | canAck | canDrain1 | canGap | canDrain2 | othDrain | nextAttempt | post => exact hp
  | idle | preChk | preDrain | tx | rfSync | rfLen | rfBody | rfCheck | rfAck | finish => cases h

theorem busy_of_phaseOk {s : State} {p : Phase} (hp : PhaseOk s p) (h : p ≠ .idle) : s.flag .busy = true := by
  cases p with
  | idle => exact absurd rfl h
  | rfLen | rfBody => exact hp.1
  | rfSync | rfCheck | rfAck | finish => exact hp
  | _ => exact (sending_of_phaseOk hp rfl).busy

/-- The two parts together are the invariant. -/
theorem inv_of_phaseOk {s : State} (hr : Ranges s) (hp : PhaseOk s s.ph) : Inv s := by
  have clause : ∀ p, s.ph = p → PhaseOk s p := by rintro _ rfl; exact hp
  exact
    { hr with
      idleIff := ⟨clause .idle, fun hb => by_contra fun hn => by simp [busy_of_phaseOk hp hn] at hb⟩
      sendOp := fun h => (sending_of_phaseOk hp h).op
      sendPayload := fun h => ⟨(sending_of_phaseOk hp h).len, (sending_of_phaseOk hp h).written⟩
      txRange := fun h => (clause .tx h).2.1
      txBegin := fun h => (clause .tx h).2.2.1
      txCounted := fun h => (clause .tx h).2.2.2
      preAttempt := fun h => h.elim (fun h => (clause .preChk h).2) fun h => (clause .preDrain h).2
      attPos := fun h => (attempted_of_phaseOk hp h).attPos
      probeLeft := fun h => (clause .probeTx h).2
      bodyLeft := fun h => (clause .rfBody h).2.2
      budgetLeft := fun h => h.elim (fun h => (clause .rfLen h).2) fun h => (clause .rfBody h).2.1 }

/-- Moving to a phase keeps the invariant when the phase's clause is met. -/
theorem inv_enter {s : State} {p : Phase} (hr : Ranges s) (hp : PhaseOk (s.enter p) p) : Inv (s.enter p) :=
  inv_of_phaseOk { hr with } hp

theorem queueFits_of_length_le {s t : State} (h : queueFits s) (hl : t.rxq.length ≤ s.rxq.length) : queueFits t := by
  simp only [queueFits] at *
  split
  · trivial
  · rename_i d hd
    rw [hd] at h
    exact hl.trans h

/-- Where the queue has room, one byte more still fits (R157). -/
theorem queueFits_deliver {s : State} (b : Byte) (hroom : Config.hasRoom s.rxq.length = true) :
    queueFits { s with rxq := s.rxq ++ [b] } := by
  simp only [queueFits, Config.hasRoom] at *
  split
  · trivial
  · rename_i d hd
    rw [hd] at hroom
    simpa using hroom

/-! The operations that keep the phase. -/

theorem ranges_setFlag {s : State} {f : Flag} (hr : Ranges s) (hb : f ≠ .busy) (hd : f ≠ .done) :
    Ranges (s.setFlag f) :=
  { hr with
    statusReserved := by simp only [State.setFlag_status, BitVec.getLsbD_or, hr.statusReserved,
      Flag.getLsbD_mask_reserved, Bool.or_self]
    notDone := by simpa [hb, hd] using hr.notDone
    attBound := fun h => hr.attBound (by simpa [hb] using h) }

theorem sending_setFlag {s : State} {f : Flag} (h : Sending s) : Sending (s.setFlag f) :=
  { h with busy := by simp [h.busy] }

theorem attempted_setFlag {s : State} {f : Flag} (h : Attempted s) : Attempted (s.setFlag f) :=
  { h with toSending := sending_setFlag h.toSending }

theorem inv_setFlag {s : State} {f : Flag} (hi : Inv s) (hb : f ≠ .busy) (hd : f ≠ .done) : Inv (s.setFlag f) :=
  { ranges_setFlag (ranges_of_inv hi) hb hd, hi with idleIff := by simpa [hb] using hi.idleIff }

theorem ranges_rxDrain {s : State} (hr : Ranges s) : Ranges s.rxDrain :=
  { hr with queue := queueFits_of_length_le hr.queue (by simp) }

/-- A byte taken from the head of the queue (R151, R152). -/
theorem inv_take {s : State} {b : Byte} {q : List Byte} (hi : Inv s) (hq : s.rxq = b :: q) : Inv { s with rxq := q } :=
  { hi with queue := queueFits_of_length_le hi.queue (by simp [hq]) }

theorem inv_tickDown {s : State} (hi : Inv s) : Inv s.tickDown := { hi with }

theorem inv_hostRead {s : State} (idx : RegIndex) (hi : Inv s) : Inv (s.hostRead idx) := { hi with }

theorem inv_advance {s : State} (m : Move) (hi : Inv s) : Inv (s.advance m) := { hi with }

theorem inv_deliver {s : State} (b : Byte) (hi : Inv s) : Inv (s.deliver b) := by
  simp only [State.deliver]
  split
  · rename_i hroom
    exact { hi with queue := queueFits_deliver b hroom }
  · exact inv_setFlag hi nofun nofun

theorem inv_reset : Inv State.reset where
  memWf := Memory.wf_reset
  statusReserved := rfl
  cfgReserved := by decide
  retryPos := by decide
  brbPos := by decide
  idleIff := by decide
  notDone := by decide
  attLe := by decide
  attBound := by decide
  cntLe := by decide
  bodyWritten := by decide
  sendOp := by decide
  sendPayload := by decide
  txRange := by decide
  txBegin := by decide
  txCounted := by decide
  preAttempt := by decide
  attPos := by decide
  probeLe := by decide
  probeLeft := by decide
  bodyLeft := by decide
  budgetLeft := by decide
  queue := by simp only [queueFits]; split <;> simp [State.reset]

theorem inv_resetBlock (s : State) : Inv s.resetBlock := { inv_reset with }

/-! The host's accesses. -/

/-- CFG after a host write: bits 7:6 stay clear, and bits 3:0 are RETRY (R22). -/
theorem toNat_cfgFields (x y : Byte) :
    (x &&& 0x30#8 ||| y &&& 0x0F#8).toNat < 64 ∧ (x &&& 0x30#8 ||| y &&& 0x0F#8).toNat % 16 = y.toNat % 16 := by
  have hx : x.toNat &&& 48 < 2 ^ 6 := Nat.and_lt_two_pow _ (by decide)
  have hy : y.toNat &&& 15 = y.toNat % 16 := Nat.and_two_pow_sub_one_eq_mod _ 4
  have h48 : (x.toNat &&& 48) % 2 ^ 4 = 0 := by rw [Nat.and_mod_two_pow]; simp
  simp only [BitVec.toNat_or, BitVec.toNat_and, BitVec.toNat_ofNat, Nat.reduceMod, Nat.reducePow, hy]
  constructor
  · exact Nat.or_lt_two_pow (n := 6) hx (by omega)
  · rw [show 16 = 2 ^ 4 from rfl, Nat.or_mod_two_pow, h48]; simp

/-- A host write to CFG drops the reserved bits and keeps RETRY away from 0 (R22, U18). -/
theorem cfgWritten_ranges {old : Byte} (w : Byte) (h : 1 ≤ old.toNat % 16) :
    (cfgWritten old w).toNat < 64 ∧ 1 ≤ (cfgWritten old w).toNat % 16 := by
  simp only [cfgWritten]
  split
  · rw [(toNat_cfgFields w old).2]
    exact ⟨(toNat_cfgFields w old).1, h⟩
  · rename_i hw
    rw [(toNat_cfgFields w w).2]
    refine ⟨(toNat_cfgFields w w).1, Nat.one_le_iff_ne_zero.mpr fun h0 => hw (BitVec.eq_of_toNat_eq ?_)⟩
    simpa [Nat.and_two_pow_sub_one_eq_mod _ 4] using h0

theorem isSome_read_write {m : List Host.Cell} {x : Nat} (a : Nat) (b : Byte)
    (h : (Memory.read m x).isSome = true) : (Memory.read (Memory.write m a b) x).isSome = true := by
  rw [Memory.read_write]
  split <;> simp [h]

theorem inv_storeEdge {idx : RegIndex} {s t : State} (hi : Inv s) (hb : s.flag .busy = false) (h : StoreEdge idx s t) :
    Inv t := by
  have hph : s.ph = .idle := hi.idleIff.mpr hb
  cases h with
  | cfg w =>
    exact { hi with
      cfgReserved := (cfgWritten_ranges w hi.retryPos).1
      retryPos := (cfgWritten_ranges w hi.retryPos).2
      attBound := fun h => absurd (hb.symm.trans h) nofun
      txBegin := by simp [hph] }
  | brb w hw => exact { hi with brbPos := hw, budgetLeft := by simp [hph] }
  | txLen w =>
    exact { hi with
      sendPayload := by simp [hph, sendPhase]
      txRange := by simp [hph] }
  | txBuf i w h =>
    exact { hi with
      memWf := Memory.write_wf w hi.memWf (Memory.mapped_txBuf h)
      bodyWritten := fun j hj => isSome_read_write _ _ (hi.bodyWritten j hj)
      sendPayload := by simp [hph, sendPhase] }
  | timing | clearDiag | nothing => exact { hi with }

theorem ranges_accept {s : State} (c : BitVec 2) (hr : Ranges s) : Ranges (s.accept c) :=
  { hr with
    statusReserved := (getLsbD_acceptedStatus_reserved s.status).trans hr.statusReserved
    notDone := fun _ => getLsbD_acceptedStatus s.status .done
    attLe := by simp [State.accept]
    attBound := by simp [State.accept]
    cntLe := by simp [State.accept]
    bodyWritten := by simp [State.accept] }

theorem flag_busy_accept (s : State) (c : BitVec 2) : (s.accept c).flag .busy = true :=
  getLsbD_acceptedStatus s.status .busy

/-- A RECV starts with the wait for a frame (R241, R245). -/
theorem inv_accept_recv {s : State} (hi : Inv s) : Inv (s.accept 1#2) :=
  inv_of_phaseOk (ranges_accept _ (ranges_of_inv hi)) (flag_busy_accept s _)

/-- A SEND or SENDR starts with the pre-send clear and no attempt made (R242, R243, R245). -/
theorem inv_accept_send {s : State} {c : BitVec 2} (hi : Inv s) (hc : c.getLsbD 1 = true) (hl : s.txLen.toNat ≤ 253)
    (hw : s.payloadWritten = true) : Inv (s.accept c) := by
  refine inv_of_phaseOk (ranges_accept _ (ranges_of_inv hi)) ?_
  have hph : (s.accept c).ph = .preChk := by simp [State.accept, hc]
  rw [hph]
  exact ⟨⟨flag_busy_accept s c, hc, hl, hw⟩, rfl⟩

theorem inv_writeEdge {idx : RegIndex} {data : Word16} {s t : State} (hi : Inv s) (h : WriteEdge idx data s t) :
    Inv t := by
  cases h with
  | overrun => exact inv_setFlag hi nofun nofun
  | nop => exact hi
  | illegal | tooLong => exact inv_setFlag hi nofun nofun
  | recv => exact inv_accept_recv hi
  | send _ _ _ hl hw | sendr _ _ _ hl hw => exact inv_accept_send hi rfl hl hw
  | store hb => exact inv_storeEdge hi hb (store_cases idx data s)

/-! The engine's operations, and TIME's. -/

theorem inv_preSendCheck {s : State} (hi : Inv s) (h : s.ph = .preChk) : Inv s.preSendCheck := by
  have hr := ranges_of_inv hi
  obtain ⟨hs, ha⟩ := phaseOk_of_inv hi h
  simp only [State.preSendCheck]
  split
  · exact inv_enter { hr with } ⟨{ hs with }, ha⟩
  · exact inv_enter hr ⟨{ hs with }, ha⟩

theorem inv_preSendDrain {s : State} (hi : Inv s) (h : s.ph = .preDrain) : Inv s.preSendDrain := by
  have hr := ranges_rxDrain (ranges_of_inv hi)
  obtain ⟨hs, ha⟩ := phaseOk_of_inv hi h
  have hlt : s.att.toNat < s.retry := by rw [ha]; exact hi.retryPos
  exact inv_enter { hr with } ⟨{ hs with }, Nat.zero_le _, fun _ => hlt, fun h0 => absurd rfl h0⟩

/-- The attempt a byte belongs to has been counted, and is not one too many (R203, R217). -/
theorem att_sendByte {s : State} (n : Nat) (b : Byte) (hi : Inv s) (h : s.ph = .tx) :
    1 ≤ (s.sendByte n b).att.toNat ∧ (s.sendByte n b).att.toNat ≤ s.retry := by
  obtain ⟨hs, -, hbegin, hcounted⟩ := phaseOk_of_inv hi h
  rw [sendByte_frame]
  by_cases h0 : s.txi = 0#9
  · have hlt := hbegin h0
    have hretry : s.retry < 16 := Nat.mod_lt _ (by decide)
    simp only [h0, if_true, BitVec.toNat_add, BitVec.toNat_ofNat]
    omega
  · simp only [h0, if_false]
    exact ⟨hcounted h0, hi.attBound hs.busy⟩

theorem inv_sendByte {s : State} {F : List Byte} (b : Byte) (hi : Inv s) (h : s.ph = .tx) (hF : s.txFrame = some F) :
    Inv (s.sendByte F.length b) := by
  obtain ⟨hs, -⟩ := phaseOk_of_inv hi h
  obtain ⟨hF4, hlen⟩ := length_txFrame hF
  obtain ⟨hpos, hle⟩ := att_sendByte F.length b hi h
  have hretry : s.retry ≤ 15 := Nat.le_of_lt_succ (Nat.mod_lt _ (by decide))
  have hr : Ranges (s.sendByte F.length b) := by
    rw [sendByte_frame] at hle ⊢
    exact { ranges_of_inv hi with attLe := hle.trans hretry, attBound := fun _ => hle }
  have hs' : Sending (s.sendByte F.length b) := by rw [sendByte_frame]; exact { hs with }
  refine inv_of_phaseOk hr ?_
  rw [sendByte_ph, h]
  split
  · rename_i hlt
    have htxi : (s.sendByte F.length b).txi.toNat = s.txi.toNat + 1 := by
      rw [sendByte_txi, if_pos hlt, BitVec.toNat_add]; simp; omega
    have hlen' : (s.sendByte F.length b).txLen = s.txLen := by rw [sendByte_frame]
    exact ⟨hs', by rw [htxi, hlen']; omega, fun h0 => by simp [h0] at htxi, fun _ => hpos⟩
  · exact ⟨hs', hpos⟩

theorem inv_sendProbe {s : State} (hi : Inv s) (h : s.ph = .probeTx) : Inv s.sendProbe := by
  obtain ⟨ha, hprb⟩ := phaseOk_of_inv hi h
  refine inv_enter { ranges_of_inv hi with probeLe := ?_ } { ha with }
  simp [BitVec.toNat_add]
  omega

theorem inv_retryOrGiveUp {s : State} (hi : Inv s) (h : s.ph = .nextAttempt) : Inv s.retryOrGiveUp := by
  have hr := ranges_of_inv hi
  have ha := phaseOk_of_inv hi h
  simp only [State.retryOrGiveUp]
  split
  · rename_i hlt
    exact inv_enter { hr with } ⟨{ ha with }, Nat.zero_le _, fun _ => hlt, fun h0 => absurd rfl h0⟩
  · exact inv_enter hr { ha with }

theorem inv_afterSend {s : State} (hi : Inv s) (h : s.ph = .post) : Inv s.afterSend := by
  have ha : Attempted s := phaseOk_of_inv hi h
  simp only [State.afterSend]
  split <;> exact inv_enter (ranges_of_inv hi) ha.busy

/-- BRB is never 0, so a wait that starts afresh has its whole budget (R23, R152). -/
theorem budget_fresh {s : State} (hr : Ranges s) : (0#8 : Byte).toNat < s.brb.toNat :=
  Nat.pos_of_ne_zero fun h => hr.brbPos (BitVec.eq_of_toNat_eq h)

theorem inv_enter_rfLen {s : State} (hr : Ranges s) (hb : s.flag .busy = true) : Inv (s.enter .rfLen) :=
  have budget := budget_fresh hr
  inv_enter hr ⟨hb, budget⟩

theorem inv_enter_rfBody {s : State} (hr : Ranges s) (hb : s.flag .busy = true)
    (hc : s.rxCnt.toNat < s.rxLen.toNat) : Inv (s.enter .rfBody) :=
  have budget := budget_fresh hr
  inv_enter hr ⟨hb, budget, hc⟩

/-- The end of a wait raises a flag and goes on to the check or to the end of the command (R173, R176, R178). -/
theorem inv_stall {s : State} {f : Flag} {p : Phase} (hr : Ranges s) (hb : s.flag .busy = true) (hf : f ≠ .busy)
    (hd : f ≠ .done) (hp : p = .rfCheck ∨ p = .finish) : Inv ((s.setFlag f).enter p) := by
  have hb' : (s.setFlag f).flag .busy = true := by simp [hb]
  obtain rfl | rfl := hp <;> exact inv_enter (ranges_setFlag hr hf hd) hb'

theorem inv_lengthByte {s : State} (l : Byte) (hi : Inv s) (h : s.ph = .rfLen) : Inv (s.lengthByte l) := by
  have hb : s.flag .busy = true := busy_of_inv hi (by simp [h])
  have hr : Ranges { s with rxLen := l, rxCnt := 0#8, acc := 0xFF#8 } :=
    { ranges_of_inv hi with cntLe := Nat.zero_le _, bodyWritten := by simp }
  simp only [State.lengthByte]
  split
  · exact inv_enter hr hb
  · rename_i hl
    exact inv_enter_rfBody hr hb (Nat.pos_of_ne_zero fun h0 => hl (BitVec.eq_of_toNat_eq h0))

/-- A body byte goes to the first cell of RX_BUF not yet collected (R28, R177). -/
theorem inv_bodyByte {s : State} (c : Byte) (hi : Inv s) (h : s.ph = .rfBody) : Inv (s.bodyByte c) := by
  obtain ⟨hb, -, hc⟩ := phaseOk_of_inv hi h
  have hlen := s.rxLen.isLt
  have hcnt : (s.rxCnt + 1#8).toNat = s.rxCnt.toNat + 1 := by rw [BitVec.toNat_add]; simp; omega
  have hr : Ranges { (s.writeBuf (rxBufBase + s.rxCnt.toNat) c) with acc := s.acc ^^^ c, rxCnt := s.rxCnt + 1#8 } :=
    { ranges_of_inv hi with
      memWf := Memory.write_wf c hi.memWf (Memory.mapped_rxBuf (by simp only [rxBufSize]; omega))
      cntLe := hcnt.trans_le hc
      bodyWritten := fun i hlt => by
        have hlt : i < s.rxCnt.toNat + 1 := hcnt ▸ hlt
        obtain hlt | rfl := Nat.lt_succ_iff_lt_or_eq.mp hlt
        · exact isSome_read_write _ _ (hi.bodyWritten i hlt)
        · simp }
  simp only [State.bodyByte]
  split
  · exact inv_enter hr hb
  · rename_i hne
    exact inv_enter_rfBody hr hb (hcnt.trans_lt (Nat.lt_of_le_of_ne hc hne))

theorem inv_checkFrame {s : State} (hi : Inv s) (h : s.ph = .rfCheck) : Inv s.checkFrame := by
  have hb : s.flag .busy = true := phaseOk_of_inv hi h
  have hb' : s.checkFrame.flag .busy = true := by simp [flag_checkFrame, hb]
  have hr : Ranges s.checkFrame :=
    { ranges_of_inv hi with
      statusReserved := by
        simp only [status_checkFrame, BitVec.getLsbD_or, hi.statusReserved]
        split_ifs <;> rfl
      notDone := by simp [flag_checkFrame, hi.notDone hb]
      attBound := fun _ => hi.attBound hb }
  have hph : s.checkFrame.ph = if s.ackDue then .rfAck else .finish := rfl
  refine inv_of_phaseOk hr ?_
  rw [hph]
  split <;> exact hb'

theorem inv_finishCommand {s : State} (hi : Inv s) : Inv s.finishCommand := by
  have hb : ((s.clearFlag .busy).setFlag .done).flag .busy = false := by simp
  exact inv_enter { ranges_of_inv hi with
    statusReserved := by
      simp only [State.setFlag_status, State.clearFlag_status, BitVec.getLsbD_or, BitVec.getLsbD_and,
        hi.statusReserved, Flag.getLsbD_mask_reserved, Bool.false_and, Bool.or_self]
    notDone := fun h => absurd (hb.symm.trans h) nofun
    attBound := fun h => absurd (hb.symm.trans h) nofun } hb

theorem inv_confirmed {s : State} (hi : Inv s) (h : s.ph = .hsWait) : Inv s.confirmed :=
  have ha : Attempted s := phaseOk_of_inv hi h
  inv_enter (ranges_setFlag (ranges_of_inv hi) nofun nofun) { attempted_setFlag (f := .txc) ha with }

theorem inv_cancelled {s : State} (hi : Inv s) (h : s.ph = .hsWait) : Inv s.cancelled :=
  have ha : Attempted s := phaseOk_of_inv hi h
  inv_enter { ranges_setFlag (f := .cans) (ranges_of_inv hi) nofun nofun with } { attempted_setFlag (f := .cans) ha with }

theorem inv_otherReply {s : State} (hi : Inv s) (h : s.ph = .hsWait) : Inv s.otherReply :=
  have ha : Attempted s := phaseOk_of_inv hi h
  inv_enter { ranges_setFlag (f := .oth) (ranges_of_inv hi) nofun nofun with } { attempted_setFlag (f := .oth) ha with }

theorem inv_noReply {s : State} (hi : Inv s) (h : s.ph = .hsWait) : Inv s.noReply :=
  have ha : Attempted s := phaseOk_of_inv hi h
  inv_enter { ranges_setFlag (f := .nrs) (ranges_of_inv hi) nofun nofun with probeLe := Nat.zero_le _ }
    ⟨{ attempted_setFlag (f := .nrs) ha with }, by simp⟩

/-- An expiry that does not use up the budget starts the wait again (R152). -/
theorem inv_waitAgain {s : State} (hi : Inv s) (h : s.ph = .rfLen ∨ s.ph = .rfBody) (hb : s.brc + 1#8 ≠ s.brb) :
    Inv { s with brc := s.brc + 1#8, tmr := s.tByte } := by
  have hlt := hi.budgetLeft h
  have hne : (s.brc + 1#8).toNat ≠ s.brb.toNat := mt BitVec.eq_of_toNat_eq hb
  refine { hi with budgetLeft := fun _ => ?_ }
  simp only [BitVec.toNat_add, BitVec.toNat_ofNat] at hne ⊢
  omega

theorem inv_engineEdge {s t : State} (hi : Inv s) (h : EngineEdge s t) : Inv t := by
  have hr := ranges_of_inv hi
  cases h with
  | rest | noByte => exact hi
  | preSendCheck h => exact inv_preSendCheck hi h
  | preSendDrain h => exact inv_preSendDrain hi h
  | sendByte h F b hF => exact inv_sendByte b hi h hF
  | confirmed h q hq => exact inv_confirmed (inv_take hi hq) h
  | cancelled h q hq => exact inv_cancelled (inv_take hi hq) h
  | otherReply h b q hq => exact inv_otherReply (inv_take hi hq) h
  | sendProbe h => exact inv_sendProbe hi h
  | probeAnswered h =>
    have ha : Attempted s := phaseOk_of_inv hi h
    exact inv_enter hr { ha with }
  | cancelAck h =>
    have ha : Attempted s := phaseOk_of_inv hi h
    exact inv_enter { hr with } { ha with }
  | cancelDrain1 h | cancelDrain2 h | otherDrain h =>
    have ha : Attempted s := phaseOk_of_inv hi h
    exact inv_enter (ranges_rxDrain hr) { ha with }
  | retryOrGiveUp h => exact inv_retryOrGiveUp hi h
  | afterSend h => exact inv_afterSend hi h
  | startMarker h q hq =>
    have hb : s.flag .busy = true := phaseOk_of_inv hi h
    exact inv_enter_rfLen (ranges_of_inv (inv_take hi hq)) hb
  | desyncByte h b q hq =>
    have hb : s.flag .busy = true := phaseOk_of_inv hi h
    exact inv_enter { ranges_of_inv (inv_take hi hq) with } hb
  | lengthByte h l q hq => exact inv_lengthByte l (inv_take hi hq) h
  | bodyByte h c q hq => exact inv_bodyByte c (inv_take hi hq) h
  | checkFrame h => exact inv_checkFrame hi h
  | ackFrame h =>
    have hb : s.flag .busy = true := phaseOk_of_inv hi h
    exact inv_enter { hr with } hb
  | finishCommand => exact inv_finishCommand hi

theorem inv_expireEdge {s t : State} (hi : Inv s) (h : ExpireEdge s t) : Inv t := by
  have hr := ranges_of_inv hi
  cases h with
  | notEnabled => exact hi
  | noReply h => exact inv_noReply hi h
  | nextProbe h hq hp =>
    have ha : Attempted s := phaseOk_of_inv hi h
    exact inv_enter hr ⟨{ ha with }, hp⟩
  | probesDone h | cancelGapOver h =>
    have ha : Attempted s := phaseOk_of_inv hi h
    exact inv_enter hr { ha with }
  | syncStall h => exact inv_stall hr (phaseOk_of_inv hi h) nofun nofun (.inr rfl)
  | waitAgain h hq hb => exact inv_waitAgain hi h hb
  | lengthStall h => exact inv_stall { hr with } (phaseOk_of_inv hi h).1 nofun nofun (.inr rfl)
  | bodyStall h => exact inv_stall { hr with } (phaseOk_of_inv hi h).1 nofun nofun (.inl rfl)

/-- Settles O48: each agent's operations keep the invariant. -/
theorem stepKeepsInv : Obligations.StepKeepsInv := fun _ _ hi h =>
  runMove_keeps (fun _ _ => inv_engineEdge) (fun _ _ => inv_expireEdge) (fun _ => inv_tickDown)
    (fun _ => inv_deliver) (fun _ _ _ _ => inv_writeEdge) (fun _ => inv_hostRead) (fun s _ => inv_resetBlock s) h
    (inv_advance _ hi)

end Sys2Proof.Proofs
end

section
/-!
PROOFS. The diagnostic counters (R32): what each agent's step counts.
-/

namespace Sys2Proof.Proofs

open Sys2Proof.Machine Sys2Proof.Laws

/-- A counter stands, or counts one event (R32). -/
def CountsOnce (v w : Byte) : Prop := v.toNat ≤ w.toNat ∧ w.toNat ≤ v.toNat + 1

theorem countsOnce_refl (v : Byte) : CountsOnce v v := ⟨le_rfl, Nat.le_succ _⟩

theorem countsOnce_satInc (v : Byte) : CountsOnce v (satInc v) :=
  ⟨satInc_le v, by rw [toNat_satInc]; exact min_le_right _ _⟩

/-- No counter goes down, and each counts at most one event (R32). -/
structure CountersRise (s t : State) : Prop where
  desync : CountsOnce s.diagDesync t.diagDesync
  retry : CountsOnce s.diagRetry t.diagRetry
  csum : CountsOnce s.diagCsum t.diagCsum
  can : CountsOnce s.diagCan t.diagCan
  other : CountsOnce s.diagOther t.diagOther

theorem countersRise_refl (s : State) : CountersRise s s :=
  ⟨countsOnce_refl _, countsOnce_refl _, countsOnce_refl _, countsOnce_refl _, countsOnce_refl _⟩

theorem countersRise_checkFrame (s : State) : CountersRise s s.checkFrame := by
  rw [checkFrame_frame]
  refine { countersRise_refl s with csum := ?_ }
  dsimp only
  split
  · exact countsOnce_satInc _
  · exact countsOnce_refl _

theorem countersRise_engineEdge {s t : State} (h : EngineEdge s t) : CountersRise s t := by
  have same := countersRise_refl s
  cases h with
  | cancelled => exact { same with can := countsOnce_satInc _ }
  | otherReply => exact { same with other := countsOnce_satInc _ }
  | desyncByte => exact { same with desync := countsOnce_satInc _ }
  | checkFrame => exact countersRise_checkFrame s
  | sendByte => rw [sendByte_frame]; exact { same with }
  | preSendCheck => simp only [State.preSendCheck]; split <;> exact { same with }
  | retryOrGiveUp => simp only [State.retryOrGiveUp]; split <;> exact { same with }
  | _ => exact { same with }

theorem countersRise_expireEdge {s t : State} (h : ExpireEdge s t) : CountersRise s t := by
  have same := countersRise_refl s
  cases h with
  | noReply => exact { same with retry := countsOnce_satInc _ }
  | _ => exact { same with }

theorem countersRise_finishRead (s : State) : CountersRise s s.finishRead := by
  simp only [State.finishRead]
  split_ifs
  · exact { countersRise_checkFrame s with }
  · exact countersRise_checkFrame s
  · exact countersRise_refl s

/-- A frame sent counts nothing; a frame read counts at most its checksum failure. -/
theorem countersRise_frameEdge {s t : State} (h : FrameEdge s t) : CountersRise s t := by
  cases h with
  | nothing => exact countersRise_refl s
  | sent h F hF hlt =>
    obtain ⟨hlen, hle⟩ := length_txFrame hF
    obtain ⟨n, hn⟩ : ∃ n, F.length - s.txi.toNat = n + 1 := Nat.exists_eq_add_one.mpr (by omega)
    obtain ⟨u, hu, he⟩ := transmitFrom_spec F (by omega) n s h (by omega)
    rw [hn, hu, he]
    exact { countersRise_refl s with }
  | read h len dir rest tail hq hl =>
    obtain ⟨u, hu, he, -⟩ := takeBytes_frame { s with rxq := s.rxq.drop (len.toNat + 2) } len dir rest hl h
    have hrise := countersRise_finishRead u
    rw [State.readWhole, hu]
    rw [he] at hrise ⊢
    exact { hrise with }

/-- Of the host's writes only the one to DIAG_CLR touches a counter (R32, R249). -/
theorem countersRise_writeEdge {idx : RegIndex} {data : Word16} {s t : State} (h : WriteEdge idx data s t)
    (hc : ¬(idx = 0x015#10 ∧ s.flag .busy = false)) : CountersRise s t := by
  have same := countersRise_refl s
  cases h with
  | store hb =>
    generalize hu : s.store idx data = u
    cases hu ▸ store_cases idx data s with
    | clearDiag hi => exact absurd ⟨hi, hb⟩ hc
    | _ => exact { same with }
  | _ => exact { same with }

theorem countersRise_deliver (s : State) (b : Byte) : CountersRise s (s.deliver b) := by
  simp only [State.deliver]
  split <;> exact { countersRise_refl s with }

/-- Settles O55: a step of any agent counts at most one event of each kind. -/
theorem countersOnlyRise : Obligations.CountersOnlyRise := by
  intro m s t h hrst hclr
  have hrise : CountersRise s t := by
    cases runMove_cases h with
    | engine he | clkEngine he => exact countersRise_engineEdge he
    | frame => exact countersRise_frameEdge (frameStep_cases h)
    | expire he | clkExpire _ he => exact countersRise_expireEdge he
    | tick | hostRead => exact { countersRise_refl s with }
    | clkIdle => exact countersRise_refl s
    | deliver b => exact countersRise_deliver s b
    | hostWrite idx data hw =>
      exact countersRise_writeEdge hw fun ⟨hi, hb⟩ => hclr data ⟨by rw [hi], hb⟩
    | rst => exact absurd rfl hrst
  exact ⟨hrise.desync, hrise.retry, hrise.csum, hrise.can, hrise.other⟩

end Sys2Proof.Proofs
end

section
/-!
PROOFS. The queue (R31, R158): the engine takes from its head or drains it, and the host and TIME leave it.
-/

namespace Sys2Proof.Proofs

open Sys2Proof.Machine Sys2Proof.Laws

theorem rxq_preSendCheck (s : State) : s.preSendCheck.rxq = s.rxq := by
  simp only [State.preSendCheck]; split <;> rfl

theorem rxq_retryOrGiveUp (s : State) : s.retryOrGiveUp.rxq = s.rxq := by
  simp only [State.retryOrGiveUp]; split <;> rfl

/-- The engine leaves the queue, takes its head, or drains it (R31, R151 to R153). -/
theorem rxq_suffix_engineEdge {s t : State} (h : EngineEdge s t) : t.rxq <:+ s.rxq := by
  cases h with
  | confirmed _ q hq | cancelled _ q hq | otherReply _ _ q hq | startMarker _ q hq | desyncByte _ _ q hq
  | lengthByte _ _ q hq | bodyByte _ _ q hq => rw [hq]; exact List.suffix_cons _ q
  | preSendDrain | cancelDrain1 | cancelDrain2 | otherDrain => exact List.nil_suffix
  | preSendCheck => rw [rxq_preSendCheck]
  | retryOrGiveUp => rw [rxq_retryOrGiveUp]
  | sendByte => rw [sendByte_frame]
  | _ => exact List.suffix_rfl

theorem rxq_suffix_engineRun {s t : State} (h : EngineRun s t) : t.rxq <:+ s.rxq :=
  h.keeps (P := fun u => u.rxq <:+ s.rxq) (fun _ _ hu he => (rxq_suffix_engineEdge he).trans hu) List.suffix_rfl

theorem rxq_expireEdge {s t : State} (h : ExpireEdge s t) : t.rxq = s.rxq := by cases h <;> rfl

theorem rxq_writeEdge {idx : RegIndex} {data : Word16} {s t : State} (h : WriteEdge idx data s t) : t.rxq = s.rxq := by
  cases h with
  | store =>
    generalize hu : s.store idx data = u
    cases hu ▸ store_cases idx data s <;> rfl
  | _ => rfl

/-- Settles O58: what every agent but the LINK leaves is a suffix of the queue. -/
theorem onlyLinkFillsTheQueue : Obligations.OnlyLinkFillsTheQueue := by
  intro m s t h
  have hedge := runMove_cases h
  constructor
  · intro hlink
    suffices hsuffix : t.rxq <:+ s.rxq from ⟨_, List.suffix_iff_eq_drop.mp hsuffix⟩
    cases hedge with
    | engine he | clkEngine he => exact rxq_suffix_engineEdge he
    | frame hr => exact rxq_suffix_engineRun hr
    | expire he | clkExpire _ he => rw [rxq_expireEdge he]
    | hostWrite _ _ hw => rw [rxq_writeEdge hw]
    | tick | clkIdle | hostRead => exact List.suffix_rfl
    | deliver b => exact absurd rfl (hlink b)
    | rst => exact List.nil_suffix
  · rintro (⟨i, d, rfl⟩ | ⟨i, rfl⟩ | rfl | rfl) <;> cases hedge
    · rename_i hw; exact rxq_writeEdge hw
    · rfl
    · rename_i he; exact rxq_expireEdge he
    · rfl

end Sys2Proof.Proofs
end

section
/-!
PROOFS. The values at reset (R35), and the refusal over a payload byte never written (R27, U6).
-/

namespace Sys2Proof.Proofs

open Sys2Proof.Machine Sys2Proof.Safety

/-- Settles O47: one clause of the invariant after the other. -/
theorem invAtReset : Obligations.InvAtReset := inv_reset

theorem payloadWritten_eq_false_iff (s : State) :
    s.payloadWritten = false ↔ ∃ i, i < s.txLen.toNat ∧ Memory.read s.mem (0x100 + i) = none := by
  simp [State.payloadWritten, txBufBase]

/-- With the engine idle and a payload that fits, a send is refused exactly over an unwritten payload (R27, R244). -/
theorem startSend_refused_iff {s : State} (c : BitVec 2) (hb : s.flag .busy = false) (hl : s.txLen.toNat ≤ 253) :
    startSend c s = .refused .txBufUnwritten ↔ s.payloadWritten = false := by
  have hlen : ¬ Config.maxPayload < s.txLen.toNat := Nat.not_lt.mpr hl
  cases hw : s.payloadWritten <;> simp [startSend, hb, hlen, hw]

/-- Settles O6: SEND and SENDR are refused alike. -/
theorem unwrittenPayloadRefused : Obligations.UnwrittenPayloadRefused := fun s hb hl =>
  ⟨(payloadWritten_eq_false_iff s).symm.trans (startSend_refused_iff 2#2 hb hl).symm,
   (payloadWritten_eq_false_iff s).symm.trans (startSend_refused_iff 3#2 hb hl).symm⟩

/-- DONE is clear after reset, and so is its port (R34, R35). -/
theorem donePort_resetBlock (s : State) : s.resetBlock.donePort = false :=
  (State.flag_congr (t := State.reset) rfl .done).trans rfl

/-- Settles O37: every conjunct is a field of the reset state. -/
theorem resetValues : Obligations.ResetValues := fun s =>
  ⟨s.resetBlock, rfl, rfl, rfl, rfl, rfl, rfl, rfl, rfl, rfl, rfl, rfl, rfl, rfl, rfl, rfl, rfl, rfl, rfl, rfl, rfl,
    rfl, rfl, rfl, rfl, rfl, rfl, rfl, donePort_resetBlock s, fun _ => rfl, rfl⟩

/-- Settles O50: the engine is idle and no flag is set, so no clause speaks of anything. -/
theorem readInvAtReset : Obligations.ReadInvAtReset where
  untouched := by decide
  reading := by decide
  collecting := by decide
  complete := by decide
  truncated := by decide
  checked := by decide
  verdict := by decide
  oneReason := by decide

end Sys2Proof.Proofs
end

section
/-!
PROOFS. The move over a whole frame is the engine's single steps, counted (R67, R170, R203; log 9). In TX each byte of the
frame is one step. In RF_SYNC each of the frame's bytes on the wire is one step, the check is one more, and so is the
acknowledgment where one is due.
-/

namespace Sys2Proof.Proofs

open Sys2Proof.Machine Sys2Proof.Safety Sys2Proof.Laws

theorem engineSteps_succ {s t : State} (n : Nat) (h : engineStep s = .next t) :
    engineSteps (n + 1) s = engineSteps n t := by
  simp only [engineSteps, h]

theorem engineSteps_add {m : Nat} {s t : State} (n : Nat) (h : engineSteps m s = .next t) :
    engineSteps (m + n) s = engineSteps n t := by
  induction m generalizing s with
  | zero => cases h; rw [Nat.zero_add]
  | succ m ih =>
    rw [Nat.succ_add]
    cases hs : engineStep s with
    | next u => rw [engineSteps_succ _ hs] at h ⊢; exact ih h
    | fault r => exact nomatch r
    | refused r => simp [engineSteps, hs] at h

/-! The rest of a frame in TX. -/

theorem engineStep_tx {s : State} {F : List Byte} {b : Byte} (hp : s.ph = .tx) (hF : s.txFrame = some F)
    (hb : F[s.txi.toNat]? = some b) : engineStep s = .next (s.sendByte F.length b) := by
  simp [engineStep, hp, txStep, hF, sendStep, hb]

/-- The last `n` bytes of the frame take `n` steps (R203). -/
theorem engineSteps_transmitFrom {F : List Byte} (n : Nat) {s : State}
    (hp : n ≠ 0 → s.ph = .tx ∧ s.txi.toNat + n = F.length) (hF : s.txFrame = some F) :
    engineSteps n s = .next (transmitFrom F n s) := by
  induction n generalizing s with
  | zero => rfl
  | succ n ih =>
    obtain ⟨htx, hn⟩ := hp (Nat.succ_ne_zero n)
    have hb : F[s.txi.toNat]? = some F[s.txi.toNat] := List.getElem?_eq_getElem (by omega)
    rw [engineSteps_succ n (engineStep_tx htx hF hb), transmitFrom, hb]
    refine ih (fun hn0 => ?inFrame) (by rw [txFrame_sendByte, hF])
    have hlen := length_txFrame hF
    have hlt : s.txi.toNat + 1 < F.length := by omega
    rw [sendByte_ph, sendByte_txi, if_pos hlt, if_pos hlt, BitVec.toNat_add]
    exact ⟨htx, by simp; omega⟩

/-- In TX the move sends the rest of the command's frame (R203; log 9). -/
theorem frameStep_tx {s : State} {F : List Byte} (hp : s.ph = .tx) (hF : s.txFrame = some F)
    (hlt : s.txi.toNat < F.length) : frameStep s = .next (transmitFrom F (F.length - s.txi.toNat) s) := by
  obtain ⟨len, rest, hd, he⟩ := decodeWire_txFrame hF
  rw [frameStep_of_fetchFrame (fetchFrame_tx hp hF hd)]
  simp only [exec, execFrameReq, hp, he, transmitFrame, hlt, if_true]

/-! A frame that stands whole at the head of the queue. -/

/-- `readFrame` is in a phase that takes the next byte, and there is one to take (R174, R175, R177). -/
def TakesByte (s : State) : Prop := s.ph = .rfSync ∨ s.ph = .rfLen ∨ s.ph = .rfBody ∧ s.rxCnt.toNat < s.rxLen.toNat

/-- A byte at the head of the queue is taken in one step. -/
theorem engineStep_takeByte {s : State} {b : Byte} {q : List Byte} (hq : s.rxq = b :: q) (hp : TakesByte s) :
    engineStep s = .next (State.takeByte { s with rxq := q } b) := by
  obtain hp | hp | ⟨hp, hlt⟩ := hp
  · simp [engineStep, hp, consumeHead_cons hq, consume_rfSync, State.takeByte]
  · simp [engineStep, hp, consumeHead_cons hq, consume_rfLen, State.takeByte]
  · simp [engineStep, hp, consumeHead_cons hq, consume_rfBody, hlt, State.takeByte]

/-- A byte is taken without a look at the queue behind it. -/
theorem takeByte_rxq (s : State) (q : List Byte) (b : Byte) :
    State.takeByte { s with rxq := q } b = { s.takeByte b with rxq := q } := by
  simp only [State.takeByte]
  split
  · split <;> rfl
  all_goals rfl

/-- One byte is one step, and the steps over the bytes behind it follow. -/
theorem engineSteps_takeBytes_cons {s u : State} {b : Byte} {bytes q : List Byte} (hq : s.rxq = b :: (bytes ++ q))
    (hp : TakesByte s) (hu : u = State.takeByte { s with rxq := bytes ++ q } b)
    (ih : engineSteps bytes.length u = .next (State.takeBytes { u with rxq := q } bytes)) :
    engineSteps (b :: bytes).length s = .next (State.takeBytes { s with rxq := q } (b :: bytes)) := by
  have htake : State.takeBytes { s with rxq := q } (b :: bytes) = State.takeBytes { u with rxq := q } bytes := by
    rw [State.takeBytes, List.foldl_cons, hu, takeByte_rxq, takeByte_rxq s (bytes ++ q)]; rfl
  have hstep : engineStep s = .next u := hu ▸ engineStep_takeByte hq hp
  rw [htake, List.length_cons, engineSteps_succ _ hstep, ih]

/-- Each byte of the body takes one step (R177). -/
theorem engineSteps_takeBytes_body {body q : List Byte} {s : State} (hq : s.rxq = body ++ q)
    (hp : body ≠ [] → s.ph = .rfBody) (hn : s.rxCnt.toNat + body.length = s.rxLen.toNat) :
    engineSteps body.length s = .next (State.takeBytes { s with rxq := q } body) := by
  induction body generalizing s with
  | nil => rw [List.nil_append] at hq; subst hq; rfl
  | cons c rest ih =>
    replace hp := hp nofun
    rw [List.length_cons] at hn
    have hlt := s.rxLen.isLt
    have hu : State.bodyByte { s with rxq := rest ++ q } c = State.takeByte { s with rxq := rest ++ q } c := by
      simp only [State.takeByte, hp]
    refine engineSteps_takeBytes_cons hq (.inr (.inr ⟨hp, by omega⟩)) hu (ih rfl (fun hne => ?phase) ?count)
    case phase =>
      have hpos := List.length_pos_iff.mpr hne
      have hmore : s.rxCnt.toNat + 1 ≠ s.rxLen.toNat := by omega
      exact if_neg hmore
    case count =>
      rw [bodyByte_frame]
      simp only [BitVec.toNat_add, BitVec.toNat_ofNat]
      omega

/-- The start marker, the length byte and the bytes of the body: each is one step (R170). -/
theorem engineSteps_takeBytes_frame {s : State} {len : Byte} {body q : List Byte} (hp : s.ph = .rfSync)
    (hl : body.length = len.toNat) (hq : s.rxq = 0x01#8 :: len :: body ++ q) :
    engineSteps (len.toNat + 2) s = .next (State.takeBytes { s with rxq := q } (0x01#8 :: len :: body)) := by
  have hmarker : State.startMarker { s with rxq := len :: body ++ q } =
      State.takeByte { s with rxq := len :: body ++ q } 0x01#8 := by
    simp only [State.takeByte, hp, if_true]
  rw [← hl]
  refine engineSteps_takeBytes_cons hq (.inl hp) hmarker ?_
  refine engineSteps_takeBytes_cons rfl (.inr (.inl rfl)) rfl ?_
  refine engineSteps_takeBytes_body rfl (fun hne => if_neg ?nonzero) ((Nat.zero_add _).trans hl)
  rintro rfl
  exact hne (List.length_eq_zero_iff.mp hl)

/-- The check is one step, and the acknowledgment, where it is due, is another (R179, R182). -/
theorem engineSteps_finishRead {s : State} (h : s.ph = .rfCheck) :
    engineSteps (1 + if s.ackDue then 1 else 0) s = .next s.finishRead := by
  have hcheck : engineStep s = .next s.checkFrame := by simp only [engineStep, h]
  have hph : s.checkFrame.ph = if s.ackDue then .rfAck else .finish := rfl
  simp only [State.finishRead, h, if_true]
  cases hdue : s.ackDue with
  | true =>
    replace hph : s.checkFrame.ph = .rfAck := by rw [hph, hdue, if_pos rfl]
    have hack : engineStep s.checkFrame = .next s.checkFrame.ackFrame := by simp only [engineStep, hph]
    rw [hph, if_pos rfl, if_pos rfl, engineSteps_succ 1 hcheck, engineSteps_succ 0 hack]; rfl
  | false =>
    replace hph : s.checkFrame.ph = .finish := by rw [hph, hdue]; rfl
    rw [hph, if_neg nofun, if_neg nofun, engineSteps_succ 0 hcheck]; rfl

/-- Reading the whole frame is the steps over its bytes, the check, and the acknowledgment where it is due (R170). -/
theorem engineSteps_readWhole {s : State} {len dir : Byte} {rest q : List Byte} (hp : s.ph = .rfSync)
    (hl : rest.length = len.toNat - 1) (hq : s.rxq = wireBytes len dir rest ++ q) :
    engineSteps (len.toNat + 3 + if s.ackDue then 1 else 0) s =
      .next (State.readWhole { s with rxq := q } (wireBytes len dir rest)) := by
  obtain ⟨u, hu, he, -⟩ := takeBytes_frame { s with rxq := q } len dir rest hl hp
  have hdue : u.ackDue = s.ackDue := by rw [he]; rfl
  have hph : u.ph = .rfCheck := by rw [he]
  have hbody : ((dir :: rest).take len.toNat).length = len.toNat := by simp; omega
  have hbytes : engineSteps (len.toNat + 2) s = .next u := hu ▸ engineSteps_takeBytes_frame hp hbody hq
  calc engineSteps (len.toNat + 3 + if s.ackDue then 1 else 0) s
    _ = engineSteps (len.toNat + 2 + (1 + if s.ackDue then 1 else 0)) s := by rw [← Nat.add_assoc]
    _ = engineSteps (1 + if u.ackDue then 1 else 0) u := by rw [engineSteps_add _ hbytes, hdue]
    _ = .next u.finishRead := engineSteps_finishRead hph
    _ = .next (State.readWhole { s with rxq := q } (wireBytes len dir rest)) := by rw [State.readWhole, hu]

/-- A frame row at the front of the bytes takes `L + 2` of them (R95). -/
theorem take_wireBytes {len dir : Byte} {rest : List Byte} (tail : List Byte) (hl : rest.length = len.toNat - 1) :
    (0x01#8 :: len :: dir :: rest ++ tail).take (len.toNat + 2) = wireBytes len dir rest := by
  have h : len.toNat ≤ (dir :: rest).length := by rw [List.length_cons]; omega
  exact congrArg (0x01#8 :: len :: ·) (List.take_append_of_le_length h)

/-- In RF_SYNC the move reads the frame at the head of the queue, whichever of the two rows it is (R92, R170; log 9). -/
theorem frameStep_rfSync {s : State} {i : Instr} {tail : List Byte} {len : Byte} (hp : s.ph = .rfSync)
    (hd : decode .wire s.rxq = .ok (i, tail)) (hlen : s.rxq[1]? = some len) :
    ∃ dir rest q, rest.length = len.toNat - 1 ∧ s.rxq = wireBytes len dir rest ++ q ∧
      frameStep s = .next (State.readWhole { s with rxq := q } (wireBytes len dir rest)) := by
  obtain ⟨len', dir, rest, hq, hl, hi⟩ := decodeWire_ok hd
  obtain rfl : len' = len := by simpa [hq] using hlen
  refine ⟨dir, rest, s.rxq.drop (len'.toNat + 2), hl, ?wire, ?move⟩
  case wire => rw [← take_wireBytes tail hl, ← hq, List.take_append_drop]
  case move =>
    rw [frameStep_of_fetchFrame (fetchFrame_rfSync hp hd hlen)]
    obtain ⟨rfl, rfl⟩ | ⟨rfl, rfl⟩ := hi
    · exact exec_frameReq_rfSync hp
    · exact exec_frameRes_rfSync hp

/-- Settles O28: in TX by induction over the bytes left to send, in RF_SYNC over the bytes of the body. -/
theorem frameMoveIsEngineSteps : Obligations.FrameMoveIsEngineSteps := by
  refine ⟨fun s F hp hF hlt => ?sent, fun s i tail len hp hd hlen => ?read⟩
  case sent =>
    have hn : s.txi.toNat + (F.length - s.txi.toNat) = F.length := by omega
    exact (frameStep_tx hp hF hlt).trans (engineSteps_transmitFrom _ (fun _ => ⟨hp, hn⟩) hF).symm
  case read =>
    obtain ⟨dir, rest, q, hl, hq, hmove⟩ := frameStep_rfSync hp hd hlen
    have hsteps := engineSteps_readWhole hp hl hq
    simp only [ackDue_eq, decide_eq_true_eq] at hsteps
    exact hmove.trans hsteps.symm

end Sys2Proof.Proofs
end

section
/-!
PROOFS. The payload and the configuration (R71): while a command runs, no agent's step writes them.
-/

namespace Sys2Proof.Proofs

open Sys2Proof.Machine Sys2Proof.Laws

/-- The configuration, TX_LEN and TX_BUF stand (R22, R23, R27). -/
structure SamePayload (s t : State) : Prop where
  cfg : t.cfg = s.cfg
  timeout : t.timeout = s.timeout
  tHs : t.tHs = s.tHs
  tByte : t.tByte = s.tByte
  tPgap : t.tPgap = s.tPgap
  tDgap : t.tDgap = s.tDgap
  brb : t.brb = s.brb
  txLen : t.txLen = s.txLen
  txBuf : ∀ a, 0x100 ≤ a → a < 0x1FD → Memory.read t.mem a = Memory.read s.mem a

theorem samePayload_refl (s : State) : SamePayload s s := ⟨rfl, rfl, rfl, rfl, rfl, rfl, rfl, rfl, fun _ _ _ => rfl⟩

theorem SamePayload.trans {s t u : State} (h : SamePayload s t) (h' : SamePayload t u) : SamePayload s u :=
  ⟨h'.cfg.trans h.cfg, h'.timeout.trans h.timeout, h'.tHs.trans h.tHs, h'.tByte.trans h.tByte,
    h'.tPgap.trans h.tPgap, h'.tDgap.trans h.tDgap, h'.brb.trans h.brb, h'.txLen.trans h.txLen,
    fun a hlo hhi => (h'.txBuf a hlo hhi).trans (h.txBuf a hlo hhi)⟩

/-- A body byte goes to RX_BUF, which lies above TX_BUF (R60, R177). -/
theorem samePayload_bodyByte (s : State) (c : Byte) : SamePayload s (s.bodyByte c) := by
  rw [bodyByte_frame]
  refine { samePayload_refl s with txBuf := fun a _ hhi => ?_ }
  rw [Memory.read_write, if_neg (by omega)]

/-- The engine writes no register and no buffer of the host's, busy or not. -/
theorem samePayload_engineEdge {s t : State} (h : EngineEdge s t) : SamePayload s t := by
  have same := samePayload_refl s
  cases h with
  | bodyByte _ c q => exact { samePayload_bodyByte { s with rxq := q } c with }
  | sendByte => rw [sendByte_frame]; exact { same with }
  | preSendCheck => simp only [State.preSendCheck]; split <;> exact { same with }
  | retryOrGiveUp => simp only [State.retryOrGiveUp]; split <;> exact { same with }
  | _ => exact { same with }

theorem samePayload_engineRun {s t : State} (h : EngineRun s t) : SamePayload s t :=
  h.keeps (P := SamePayload s) (fun _ _ hu he => hu.trans (samePayload_engineEdge he)) (samePayload_refl s)

theorem samePayload_expireEdge {s t : State} (h : ExpireEdge s t) : SamePayload s t := by
  have same := samePayload_refl s
  cases h <;> exact { same with }

/-- A host write while a command runs is ignored (R248). -/
theorem writeEdge_busy {idx : RegIndex} {data : Word16} {s t : State} (h : WriteEdge idx data s t)
    (hb : s.flag .busy = true) : t = s.overrun := by
  cases h with
  | overrun => rfl
  | nop h | illegal h | tooLong h | recv h | send h | sendr h | store h => exact absurd (h.symm.trans hb) nofun

theorem samePayload_deliver (s : State) (b : Byte) : SamePayload s (s.deliver b) := by
  simp only [State.deliver]
  split <;> exact { samePayload_refl s with }

/-- Settles O57: of all the agents only the host writes these registers, and its write is ignored. -/
theorem payloadIsStableWhileBusy : Obligations.PayloadIsStableWhileBusy := by
  intro m s t hb h hrst
  have hsame : SamePayload s t := by
    cases runMove_cases h with
    | engine he | clkEngine he => exact samePayload_engineEdge he
    | frame hr => exact samePayload_engineRun hr
    | expire he | clkExpire _ he => exact samePayload_expireEdge he
    | tick | hostRead => exact { samePayload_refl s with }
    | clkIdle => exact samePayload_refl s
    | deliver b => exact samePayload_deliver s b
    | hostWrite _ _ hw => rw [writeEdge_busy hw hb]; exact { samePayload_refl s with }
    | rst => exact absurd rfl hrst
  exact ⟨hsame.cfg, hsame.timeout, hsame.tHs, hsame.tByte, hsame.tPgap, hsame.tDgap, hsame.brb, hsame.txLen,
    hsame.txBuf⟩

end Sys2Proof.Proofs
end

section
/-!
PROOFS. Encoding and decoding (30_encoding.md): in every context, decoding answers an instruction exactly when it is a
well-formed one of that context and the bytes read are its encoding. Said for one byte, for a frame on the wire, and from
these two for `decode`; each direction of the round trip is one half of it.
-/

namespace Sys2Proof.Proofs

open Sys2Proof.Laws

/-! The operands of the catch-all rows: what the exact rows of their context leave (R97, R111). -/

/-- A command code is illegal when it is none of NOP, RECV, SEND and SENDR (R246). -/
theorem wellFormed_cmdIllegal_iff (b : Byte) :
    (Instr.cmdIllegal b).wellFormed = true ↔ b ≠ 0x00#8 ∧ b ≠ 0x01#8 ∧ b ≠ 0x02#8 ∧ b ≠ 0x03#8 := by
  simp only [Instr.wellFormed, decide_eq_true_eq, ne_eq, ← BitVec.toNat_inj, BitVec.toNat_ofNat]
  omega

theorem wellFormed_hsOther_iff (b : Byte) :
    (Instr.hsOther b).wellFormed = true ↔ b ≠ 0x06#8 ∧ b ≠ 0x15#8 := by
  simp only [Instr.wellFormed, Bool.and_eq_true, bne_iff_ne]

/-- While CFG.CAN_EN is 1 the byte 0x18 is the row CAN (R97). -/
theorem inContext_hsOther_iff (b : Byte) (canEn : Bool) :
    (Instr.hsOther b).inContext (.byte (.handshake canEn)) = true ↔ ¬(b = 0x18#8 ∧ canEn = true) := by
  simp only [Instr.inContext, Bool.not_eq_true', ← Bool.not_eq_true, Bool.and_eq_true, beq_iff_eq]

/-! One byte (R97, R110). -/

/-- The byte is the encoding of its row, and its row excludes the bytes of the rows before it. -/
theorem encode_decodeByte (c : ByteContext) (b : Byte) :
    (decodeByte c b).wellFormed = true ∧ (decodeByte c b).inContext (.byte c) = true ∧ encode (decodeByte c b) = [b] := by
  cases c with
  | command =>
    simp only [decodeByte]
    split_ifs with h0 h1 h2 h3
    case neg => exact ⟨(wellFormed_cmdIllegal_iff b).mpr ⟨h0, h1, h2, h3⟩, rfl, rfl⟩
    all_goals subst b; exact ⟨rfl, rfl, rfl⟩
  | sync =>
    simp only [decodeByte]
    split_ifs with h1
    · subst b; exact ⟨rfl, rfl, rfl⟩
    · exact ⟨bne_iff_ne.mpr h1, rfl, rfl⟩
  | handshake canEn =>
    simp only [decodeByte]
    split_ifs with h6 h15 hcan
    · subst b; exact ⟨rfl, rfl, rfl⟩
    · subst b; exact ⟨rfl, rfl, rfl⟩
    · obtain ⟨rfl, rfl⟩ := hcan; exact ⟨rfl, rfl, rfl⟩
    · exact ⟨(wellFormed_hsOther_iff b).mpr ⟨h6, h15⟩, (inContext_hsOther_iff b canEn).mpr hcan, rfl⟩

/-- A well-formed instruction of a byte context is the row of its byte there. -/
theorem decodeByte_of_encode {i : Instr} {c : ByteContext} {b : Byte} (hw : i.wellFormed = true)
    (hc : i.inContext (.byte c) = true) (he : encode i = [b]) : decodeByte c b = i := by
  cases i with
  | frameReq | frameRes => cases hc
  | sof | ack | nak | can | nop | recv | send | sendr =>
    cases c <;> cases hc
    cases he
    rfl
  | syncSkip x =>
    cases c <;> cases hc
    cases he
    exact if_neg (bne_iff_ne.mp hw)
  | hsOther x =>
    cases he
    obtain ⟨h6, h15⟩ := (wellFormed_hsOther_iff b).mp hw
    cases c with
    | handshake canEn =>
      have hcan := (inContext_hsOther_iff b canEn).mp hc
      simp only [decodeByte, h6, h15, hcan, if_false]
    | command | sync => cases hc
  | cmdIllegal code =>
    cases c <;> cases hc
    cases he
    obtain ⟨h0, h1, h2, h3⟩ := (wellFormed_cmdIllegal_iff b).mp hw
    simp only [decodeByte, h0, h1, h2, h3, if_false]

theorem decodeByte_eq_iff {i : Instr} {c : ByteContext} {b : Byte} :
    decodeByte c b = i ↔ i.wellFormed = true ∧ i.inContext (.byte c) = true ∧ encode i = [b] := by
  constructor
  · rintro rfl; exact encode_decodeByte c b
  · rintro ⟨hw, hc, he⟩; exact decodeByte_of_encode hw hc he

/-- An instruction of a byte context is one byte (R110). -/
theorem encode_eq_singleton {i : Instr} {c : ByteContext} (hc : i.inContext (.byte c) = true) : ∃ b, encode i = [b] := by
  cases i with
  | frameReq | frameRes => cases hc
  | _ => exact ⟨_, rfl⟩

theorem decode_byte_eq_ok_iff_encode {c : ByteContext} {bytes tail : List Byte} {i : Instr} :
    decode (.byte c) bytes = .ok (i, tail) ↔
      i.wellFormed = true ∧ i.inContext (.byte c) = true ∧ encode i ++ tail = bytes := by
  rw [decode_byte_eq_ok_iff]
  constructor
  · rintro ⟨b, rfl, hd⟩
    obtain ⟨hw, hc, he⟩ := decodeByte_eq_iff.mp hd
    exact ⟨hw, hc, by rw [he]; rfl⟩
  · rintro ⟨hw, hc, rfl⟩
    obtain ⟨b, he⟩ := encode_eq_singleton hc
    exact ⟨b, by rw [he]; rfl, decodeByte_of_encode hw hc he⟩

/-! A frame on the wire (R90, R95). -/

/-- A header with the bytes its length byte asks for decodes by its direction byte, and leaves what follows. -/
theorem decodeWire_frame (len dir : Byte) {rest : List Byte} (tail : List Byte) (hl : rest.length = len.toNat - 1) :
    decodeWire (0x01#8 :: len :: dir :: rest ++ tail) =
      if dir = 0x00#8 then .ok (.frameReq len rest, tail)
      else if dir = 0x01#8 then .ok (.frameRes len rest, tail) else .error .noDirectionRow := by
  have henough : ¬ (rest ++ tail).length < len.toNat - 1 := by rw [List.length_append]; omega
  simp only [List.cons_append, decodeWire, ne_eq, not_true_eq_false, if_false, henough, List.take_left' hl,
    List.drop_left' hl]

theorem decodeWire_eq_ok_iff {bytes tail : List Byte} {i : Instr} :
    decodeWire bytes = .ok (i, tail) ↔
      i.wellFormed = true ∧ i.inContext .wire = true ∧ encode i ++ tail = bytes := by
  constructor
  · intro hd
    obtain ⟨len, dir, rest, rfl, hl, ⟨rfl, rfl⟩ | ⟨rfl, rfl⟩⟩ := decodeWire_ok hd
    · exact ⟨beq_iff_eq.mpr hl, rfl, rfl⟩
    · exact ⟨beq_iff_eq.mpr hl, rfl, rfl⟩
  · rintro ⟨hw, hc, rfl⟩
    cases i with
    | frameReq len rest => exact decodeWire_frame len 0x00#8 tail (beq_iff_eq.mp hw)
    | frameRes len rest => exact decodeWire_frame len 0x01#8 tail (beq_iff_eq.mp hw)
    | _ => cases hc

/-! Both. -/

theorem decode_eq_ok_iff {c : Context} {bytes tail : List Byte} {i : Instr} :
    decode c bytes = .ok (i, tail) ↔ i.wellFormed = true ∧ i.inContext c = true ∧ encode i ++ tail = bytes := by
  cases c with
  | byte c => exact decode_byte_eq_ok_iff_encode
  | wire => exact decodeWire_eq_ok_iff

/-- Settles O43: the encoding of a well-formed instruction is what decodes to it. -/
theorem decodeOfEncode : Obligations.DecodeOfEncode := fun _ _ _ hw hc => decode_eq_ok_iff.mpr ⟨hw, hc, rfl⟩

/-- Settles O44: only the encoding of a well-formed instruction decodes to it. -/
theorem encodeOfDecode : Obligations.EncodeOfDecode := fun _ _ _ _ hd => decode_eq_ok_iff.mp hd

/-- Settles O45: each word is decoded as written. -/
theorem specWordsDecode : Obligations.SpecWordsDecode :=
  ⟨rfl, rfl, rfl, rfl, rfl, rfl, rfl, rfl, rfl, rfl, rfl, rfl⟩

end Sys2Proof.Proofs
end

section
/-!
PROOFS. What is transmitted (R98): each agent's step hands over nothing, one acknowledgment, or the bytes of the
command's frame at their place.
-/

namespace Sys2Proof.Proofs

open Sys2Proof.Machine Sys2Proof.Safety Sys2Proof.Laws

/-- What a move hands to TxWrite, and where it leaves a transmission in progress (R98, R203). -/
inductive Transmits (m : Move) (s t : State) : Prop
  | nothing (hlog : t.txLog = s.txLog) (htx : s.ph = .tx → t.ph = .tx ∧ t.txi = s.txi)
  | ack (hlog : t.txLog = s.txLog ++ [0x06#8])
      (hp : s.ph = .preChk ∨ s.ph = .probeTx ∨ s.ph = .canAck ∨ s.ph = .rfAck ∨ (m = .frame ∧ s.ph = .rfSync))
  | frameBytes (F out : List Byte) (hp : s.ph = .tx) (hF : s.txFrame = some F) (hlog : t.txLog = s.txLog ++ out)
      (hout : out = (F.drop s.txi.toNat).take 1 ∨ (m = .frame ∧ out = F.drop s.txi.toNat))
      (hend : (t.ph = .tx ∧ t.txi.toNat = s.txi.toNat + out.length) ∨
        (t.ph = .hsWait ∧ s.txi.toNat + out.length = F.length))

theorem transmits_nothing_of_ph_ne {m : Move} {s t : State} (hp : s.ph ≠ .tx) (hlog : t.txLog = s.txLog) :
    Transmits m s t := .nothing hlog fun h => absurd h hp

theorem transmits_refl (m : Move) (s : State) : Transmits m s s := .nothing rfl fun h => ⟨h, rfl⟩

/-- The pre-send clear acknowledges once, when anything is queued (R201). -/
theorem transmits_preSendCheck (m : Move) {s : State} (hp : s.ph = .preChk) : Transmits m s s.preSendCheck := by
  simp only [State.preSendCheck]
  split
  · exact .ack rfl (.inl hp)
  · exact transmits_nothing_of_ph_ne (by simp [hp]) rfl

/-- One byte of the frame goes out, and the transmission stands behind it (R203). -/
theorem transmits_sendByte (m : Move) {s : State} {F : List Byte} {b : Byte} (hp : s.ph = .tx) (hF : s.txFrame = some F)
    (hb : F[s.txi.toNat]? = some b) : Transmits m s (s.sendByte F.length b) := by
  obtain ⟨hlt, -⟩ := List.getElem?_eq_some_iff.mp hb
  obtain ⟨hlen, hle⟩ := length_txFrame hF
  refine .frameBytes F [b] hp hF (by rw [sendByte_frame]) (.inl ?_) ?_
  · rw [List.take_one, List.head?_drop, hb]; rfl
  · rw [sendByte_ph, sendByte_txi]
    split
    · exact .inl ⟨hp, by rw [BitVec.toNat_add]; simp; omega⟩
    · exact .inr ⟨rfl, by simp; omega⟩

theorem transmits_engineEdge (m : Move) {s t : State} (h : EngineEdge s t) : Transmits m s t := by
  cases h with
  | rest | noByte => exact transmits_refl m s
  | preSendCheck hp => exact transmits_preSendCheck m hp
  | sendByte hp F b hF hb => exact transmits_sendByte m hp hF hb
  | sendProbe hp => exact .ack rfl (.inr (.inl hp))
  | cancelAck hp => exact .ack rfl (.inr (.inr (.inl hp)))
  | ackFrame hp => exact .ack rfl (.inr (.inr (.inr (.inl hp))))
  | retryOrGiveUp hp =>
    refine transmits_nothing_of_ph_ne (by simp [hp]) ?_
    simp only [State.retryOrGiveUp]
    split <;> rfl
  | preSendDrain hp | confirmed hp | cancelled hp | otherReply hp | probeAnswered hp | cancelDrain1 hp | cancelDrain2 hp
  | otherDrain hp | afterSend hp | startMarker hp | desyncByte hp | lengthByte hp | bodyByte hp | checkFrame hp
  | finishCommand hp => exact transmits_nothing_of_ph_ne (by simp [hp]) rfl

theorem transmits_expireEdge (m : Move) {s t : State} (h : ExpireEdge s t) : Transmits m s t := by
  cases h with
  | notEnabled => exact transmits_refl m s
  | waitAgain => exact .nothing rfl fun h => ⟨h, rfl⟩
  | noReply hp | nextProbe hp | probesDone hp | cancelGapOver hp | syncStall hp | lengthStall hp | bodyStall hp =>
    exact transmits_nothing_of_ph_ne (by simp [hp]) rfl

/-- The end of a read sends nothing but the acknowledgment (R179, R182). -/
theorem txLog_finishRead (s : State) : s.finishRead.txLog = s.txLog ∨ s.finishRead.txLog = s.txLog ++ [0x06#8] := by
  simp only [State.finishRead]
  split_ifs
  · exact .inr rfl
  · exact .inl rfl
  · exact .inl rfl

theorem transmits_frameEdge {s t : State} (h : FrameEdge s t) : Transmits .frame s t := by
  cases h with
  | nothing => exact transmits_refl _ s
  | sent hp F hF hlt =>
    obtain ⟨hlen, hle⟩ := length_txFrame hF
    obtain ⟨n, hn⟩ := Nat.exists_eq_add_of_lt hlt
    obtain ⟨u, hu, he⟩ := transmitFrom_spec F (by omega) n s hp (by omega)
    rw [show F.length - s.txi.toNat = n + 1 by omega, hu]
    refine .frameBytes F _ hp hF (by rw [he]) (.inr ⟨rfl, rfl⟩) (.inr ⟨by rw [he], ?_⟩)
    rw [List.length_drop]
    omega
  | read hp len dir rest tail hq hl =>
    obtain ⟨u, hu, he, -⟩ := takeBytes_frame { s with rxq := s.rxq.drop (len.toNat + 2) } len dir rest hl hp
    have hlog : u.txLog = s.txLog := by rw [he]
    rw [State.readWhole, hu]
    obtain h | h := txLog_finishRead u
    · exact transmits_nothing_of_ph_ne (by simp [hp]) (h.trans hlog)
    · exact .ack (by rw [h, hlog]) (.inr (.inr (.inr (.inr ⟨rfl, hp⟩))))

theorem txLog_store (s : State) (idx : RegIndex) (data : Word16) : (s.store idx data).txLog = s.txLog := by
  generalize hu : s.store idx data = u
  cases hu ▸ store_cases idx data s <;> rfl

/-- A host write hands nothing to TxWrite; during a transmission it is ignored (R248). -/
theorem transmits_writeEdge (m : Move) {idx : RegIndex} {data : Word16} {s t : State} (hi : Inv s)
    (h : WriteEdge idx data s t) : Transmits m s t := by
  by_cases hp : s.ph = .tx
  · rw [writeEdge_busy h (busy_of_inv hi (by simp [hp]))]
    exact .nothing rfl fun h => ⟨h, rfl⟩
  · refine transmits_nothing_of_ph_ne hp ?_
    cases h with
    | store => exact txLog_store s idx data
    | _ => rfl

theorem transmits_deliver (m : Move) (s : State) (b : Byte) : Transmits m s (s.deliver b) := by
  simp only [State.deliver]
  split <;> exact .nothing rfl fun h => ⟨h, rfl⟩

theorem transmits_runMove {m : Move} {s t : State} (hi : Inv s) (h : runMove m s = .next t) (hrst : m ≠ .rst) :
    Transmits m s t := by
  cases runMove_cases h with
  | engine he | clkEngine he => exact transmits_engineEdge _ he
  | frame => exact transmits_frameEdge (frameStep_cases h)
  | expire he | clkExpire _ he => exact transmits_expireEdge _ he
  | tick | hostRead => exact .nothing rfl fun h => ⟨h, rfl⟩
  | clkIdle => exact transmits_refl _ s
  | deliver b => exact transmits_deliver _ s b
  | hostWrite idx data hw => exact transmits_writeEdge _ hi hw
  | rst => exact absurd rfl hrst

/-- In TX the payload fits, so there is a frame to send (R132, R247). -/
theorem txFrame_of_inv {s : State} (hi : Inv s) (hp : s.ph = .tx) : ∃ F, s.txFrame = some F := by
  have hfits : s.txPayload.length ≤ Config.maxPayload :=
    (length_txPayload s).trans_le (sending_of_inv hi (by rw [hp]; rfl)).len
  exact ⟨_, if_pos hfits⟩

/-- The direction byte of the frame being sent (R132). -/
theorem txFrame_dir {s : State} {F : List Byte} (hF : s.txFrame = some F) : F[2]? = some 0x00#8 := by
  obtain ⟨-, rfl⟩ := encodeFrame_some hF
  rfl

/-- Settles O53: whichever agent moves, nothing, an acknowledgment, or bytes of the frame. -/
theorem onlyAcksAndFramesAreSent : Obligations.OnlyAcksAndFramesAreSent := by
  intro m s t hi h hrst
  cases transmits_runMove hi h hrst with
  | nothing hlog htx =>
    refine ⟨[], by rw [hlog, List.append_nil], .inl rfl, fun hp => ?_⟩
    obtain ⟨F, hF⟩ := txFrame_of_inv hi hp
    obtain ⟨hph, hidx⟩ := htx hp
    exact ⟨F, hF, .inl ⟨hph, by rw [hidx]; rfl⟩⟩
  | ack hlog hp => exact ⟨[0x06#8], hlog, .inr (.inl ⟨rfl, hp⟩), fun htx => by simp [htx] at hp⟩
  | frameBytes F out hp hF hlog hout hend =>
    exact ⟨out, hlog, .inr (.inr ⟨hp, F, hF, txFrame_dir hF, hout⟩), fun _ => ⟨F, hF, hend⟩⟩

end Sys2Proof.Proofs
end

section
/-!
PROOFS. The direction byte of a frame (R92): two runs of `readFrame` over frames that differ in it stay in step, and
differ only in the cell RX_BUF[0] and in the accumulator until the check.
-/

namespace Sys2Proof.Proofs

open Sys2Proof.Machine Sys2Proof.Laws

/-- The second state is the first one but for RX_BUF[0] and ACC (R28, R30). -/
inductive SameButDirection (s : State) : State → Prop
  | mk (mem : List Host.Cell) (acc : Byte) (hmem : ∀ a, a ≠ 0x200 → Memory.read mem a = Memory.read s.mem a) :
      SameButDirection s { s with mem := mem, acc := acc }

theorem read_write_congr {m m' : List Host.Cell} {a : Nat} (i : Nat) (b : Byte)
    (h : Memory.read m' a = Memory.read m a) :
    Memory.read (Memory.write m' i b) a = Memory.read (Memory.write m i b) a := by
  rw [Memory.read_write, Memory.read_write, h]

/-- The same byte taken in both states: both go the same way (R174, R175, R177). -/
theorem sameButDirection_takeByte {s t : State} (b : Byte) (h : SameButDirection s t) :
    SameButDirection (s.takeByte b) (t.takeByte b) := by
  obtain ⟨mem, acc, hmem⟩ := h
  simp only [State.takeByte]
  split
  · split <;> exact ⟨mem, acc, hmem⟩
  · exact ⟨mem, _, hmem⟩
  · exact ⟨Memory.write mem _ b, _, fun a ha => read_write_congr _ b (hmem a ha)⟩
  · exact ⟨mem, acc, hmem⟩

theorem sameButDirection_takeBytes {s t : State} (bytes : List Byte) (h : SameButDirection s t) :
    SameButDirection (s.takeBytes bytes) (t.takeBytes bytes) := by
  induction bytes generalizing s t with
  | nil => exact h
  | cons b bytes ih => exact ih (sameButDirection_takeByte b h)

/-- The first byte of the body goes to RX_BUF[0], whichever it is (R177). -/
theorem sameButDirection_bodyByte {s : State} (d d' : Byte) (hc : s.rxCnt = 0#8) :
    SameButDirection (s.bodyByte d) (s.bodyByte d') := by
  rw [bodyByte_frame s d', bodyByte_frame s d]
  refine ⟨_, _, fun a ha => ?_⟩
  simp [Memory.read_write, hc, ha]

/-- Reading a frame's bytes: the start marker and the length byte, then the body (R170). -/
theorem takeBytes_wireBytes {s : State} (len dir : Byte) (rest : List Byte) (hp : s.ph = .rfSync) :
    s.takeBytes (wireBytes len dir rest) =
      (s.startMarker.lengthByte len).takeBytes ((dir :: rest).take len.toNat) := by
  simp only [wireBytes, State.takeBytes, List.foldl_cons, State.takeByte, hp, if_true]
  rfl

/-- The bytes of two frames that differ in the direction byte (R92). -/
theorem sameButDirection_takeBytes_frame {s : State} (len dir dir' : Byte) (rest : List Byte) (hp : s.ph = .rfSync) :
    SameButDirection (s.takeBytes (wireBytes len dir rest)) (s.takeBytes (wireBytes len dir' rest)) := by
  rw [takeBytes_wireBytes len dir rest hp, takeBytes_wireBytes len dir' rest hp]
  cases hn : len.toNat with
  | zero => exact ⟨_, _, fun _ _ => rfl⟩
  | succ n =>
    have hbody : (s.startMarker.lengthByte len).ph = .rfBody :=
      if_neg fun h0 => by simp [h0] at hn
    have hfirst : ∀ d, (s.startMarker.lengthByte len).takeByte d = (s.startMarker.lengthByte len).bodyByte d := by
      intro d; simp only [State.takeByte, hbody]
    simp only [List.take_succ_cons, State.takeBytes, List.foldl_cons, hfirst]
    exact sameButDirection_takeBytes _ (sameButDirection_bodyByte dir dir' rfl)

/-- The two reads ended alike, but for RX_BUF[0] and what the check makes of the accumulator (R92, R179). -/
structure ReadAlike (t u : State) : Prop where
  frame : u = { t with mem := u.mem, acc := u.acc, status := u.status, diagCsum := u.diagCsum }
  flags : ∀ f, f ≠ .cse → u.flag f = t.flag f
  mem : ∀ a, a ≠ 0x200 → Memory.read u.mem a = Memory.read t.mem a

theorem readAlike_checkFrame {s t : State} (h : SameButDirection s t) : ReadAlike s.checkFrame t.checkFrame := by
  obtain ⟨mem, acc, hmem⟩ := h
  refine ⟨?_, fun f hf => ?_, hmem⟩
  · conv_lhs => rw [checkFrame_frame]
    conv_rhs => rw [checkFrame_frame s]
    rfl
  · rw [flag_checkFrame, flag_checkFrame, decide_eq_false hf]
    rfl

/-- The check goes to the acknowledgment in both reads or in neither (R179, R182). -/
theorem readAlike_finishRead {s t : State} (h : SameButDirection s t) : ReadAlike s.finishRead t.finishRead := by
  have hph : t.ph = s.ph := by obtain ⟨mem, acc, hmem⟩ := h; rfl
  have hcheck := readAlike_checkFrame h
  have hphCheck : t.checkFrame.ph = s.checkFrame.ph := by rw [hcheck.frame]
  simp only [State.finishRead, hph, hphCheck]
  split_ifs
  · refine ⟨?_, hcheck.flags, hcheck.mem⟩
    conv_lhs => rw [hcheck.frame]
    rfl
  · exact hcheck
  · obtain ⟨mem, acc, hmem⟩ := h
    exact ⟨rfl, fun _ _ => rfl, hmem⟩

/-- Settles O27: the two reads stay in step over the bytes, and end alike. -/
theorem directionIsNotExamined : Obligations.DirectionIsNotExamined := by
  intro s len rest _ hp
  obtain ⟨hframe, hflags, hmem⟩ :=
    readAlike_finishRead (sameButDirection_takeBytes_frame len 0x00#8 0x01#8 rest hp)
  exact ⟨_, _, exec_frameReq_rfSync hp, exec_frameRes_rfSync hp, hframe, hflags, hmem⟩

end Sys2Proof.Proofs
end

section
/-!
PROOFS. The Frame Codec (40_codec.md). The checksum is 0xFF exclusive-ored with `xorOf`, the exclusive-or of the bytes, so
its laws are those of exclusive-or over a list; what VERIFY answers follows from them. A frame ENCODE made is a start
marker, a length byte and a body, and each claim about it is one about these three.
-/

namespace Sys2Proof.Proofs

open Sys2Proof.Machine Sys2Proof.Laws

/-! The exclusive-or of a list of bytes. -/

/-- The exclusive-or of all the bytes: what several error masks come to together (R131 f). -/
def xorOf (s : List Byte) : Byte := s.foldl (fun x m => x ^^^ m) 0x00#8

theorem foldl_xor_eq (s : List Byte) (x : Byte) : s.foldl (fun x m => x ^^^ m) x = x ^^^ xorOf s := by
  rw [xorOf, ← List.foldl_assoc (op := fun x m : Byte => x ^^^ m), BitVec.xor_zero]

@[simp] theorem xorOf_nil : xorOf [] = 0x00#8 := rfl

@[simp] theorem xorOf_cons (b : Byte) (s : List Byte) : xorOf (b :: s) = b ^^^ xorOf s := by
  rw [xorOf, List.foldl_cons, BitVec.zero_xor, foldl_xor_eq]

@[simp] theorem xorOf_append (s t : List Byte) : xorOf (s ++ t) = xorOf s ^^^ xorOf t := by
  rw [xorOf, List.foldl_append, foldl_xor_eq]; rfl

theorem xorOf_perm {s t : List Byte} (h : s.Perm t) : xorOf s = xorOf t := h.foldl_eq _

/-- One byte altered by a mask alters the exclusive-or by that mask. -/
theorem xorOf_set (s : List Byte) (i : Nat) (m : Byte) (h : i < s.length) :
    xorOf (s.set i (s[i] ^^^ m)) = xorOf s ^^^ m := by
  induction s generalizing i with
  | nil => cases h
  | cons b s ih =>
    cases i with
    | zero => simp only [List.set_cons_zero, List.getElem_cons_zero, xorOf_cons]; ac_rfl
    | succ i =>
      simp only [List.set_cons_succ, List.getElem_cons_succ, xorOf_cons, ih i (Nat.lt_of_succ_lt_succ h),
        BitVec.xor_assoc]

/-- Bytes altered by masks alter the exclusive-or by what the masks come to together. -/
theorem xorOf_zipWith (s ms : List Byte) (h : ms.length = s.length) :
    xorOf (List.zipWith (fun b m => b ^^^ m) s ms) = xorOf s ^^^ xorOf ms := by
  induction s generalizing ms with
  | nil => cases ms with
    | nil => rfl
    | cons => cases h
  | cons b s ih => cases ms with
    | nil => cases h
    | cons m ms =>
      simp only [List.zipWith_cons_cons, xorOf_cons, ih ms (Nat.succ.inj h)]
      ac_rfl

/-! The checksum (R130, R131). -/

theorem csum_eq (s : List Byte) : csum s = 0xFF#8 ^^^ xorOf s := foldl_xor_eq s 0xFF#8

theorem csum_cons (b : Byte) (s : List Byte) : csum (b :: s) = csum s ^^^ b := by
  rw [csum_eq, csum_eq, xorOf_cons]; ac_rfl

theorem csum_concat (s : List Byte) (b : Byte) : csum (s ++ [b]) = csum s ^^^ b := by
  rw [csum, List.foldl_append]; rfl

theorem csum_append (s t : List Byte) : csum (s ++ t) = csum s ^^^ csum t ^^^ 0xFF#8 := by
  have hcancel : 0xFF#8 ^^^ xorOf t ^^^ 0xFF#8 = xorOf t := by
    rw [BitVec.xor_comm 0xFF#8, BitVec.xor_assoc, BitVec.xor_self, BitVec.xor_zero]
  rw [csum_eq (s ++ t), csum_eq t, xorOf_append, BitVec.xor_assoc (csum s), hcancel, csum_eq s, BitVec.xor_assoc]

theorem csum_concat_csum (s : List Byte) : csum (s ++ [csum s]) = 0x00#8 := by
  rw [csum_concat, BitVec.xor_self]

theorem csum_perm {s t : List Byte} (h : s.Perm t) : csum s = csum t := by
  rw [csum_eq, csum_eq, xorOf_perm h]

theorem csum_set (s : List Byte) (i : Nat) (m : Byte) (h : i < s.length) :
    csum (s.set i (s[i] ^^^ m)) = csum s ^^^ m := by
  rw [csum_eq, csum_eq, xorOf_set s i m h, BitVec.xor_assoc]

theorem csum_zipWith (s ms : List Byte) (h : ms.length = s.length) :
    csum (List.zipWith (fun b m => b ^^^ m) s ms) = csum s ^^^ xorOf ms := by
  rw [csum_eq, csum_eq, xorOf_zipWith s ms h, BitVec.xor_assoc]

/-- Settles O38: each law is that of the exclusive-or of the bytes. -/
theorem csumLaws : Obligations.CsumLaws :=
  ⟨csum_concat, csum_append, csum_concat_csum, fun _ _ => csum_perm, csum_set, csum_zipWith⟩

/-! The verdict (R134, R135). -/

/-- The accumulator of VERIFY is the checksum over the length byte and the body. -/
theorem verify_fst (L : Byte) (body : List Byte) : (verify L body).1 = csum (L :: body) := (csum_cons L body).symm

theorem verify_snd_iff {L : Byte} {body : List Byte} : (verify L body).2 = true ↔ (verify L body).1 = 0x00#8 :=
  beq_iff_eq

/-- A good frame whose body's checksum was altered by a mask has a good verdict exactly when the mask is zero. -/
theorem verify_altered_iff {L m : Byte} {body body' : List Byte} (hok : (verify L body).2 = true)
    (hm : csum body' = csum body ^^^ m) : (verify L body').2 = true ↔ m = 0x00#8 := by
  have hmask : (verify L body').1 = (verify L body).1 ^^^ m := by
    rw [verify_fst, verify_fst, csum_cons, csum_cons, hm]; ac_rfl
  rw [verify_snd_iff, hmask, verify_snd_iff.mp hok, BitVec.zero_xor]

/-- Settles O41: the accumulator is a checksum, and an altered body alters it by its masks. -/
theorem verifyDetectsMasks : Obligations.VerifyDetectsMasks := by
  refine ⟨fun L d c P => ?recomputed, fun L body ms hlen hok => ?masks, fun L m body i hi hm hok => ?oneByte,
    fun L body body' hperm => ?reordered⟩
  case recomputed => rw [verify_fst, ← List.cons_append, csum_concat]
  case masks => exact verify_altered_iff hok (csum_zipWith body ms hlen)
  case oneByte => exact Bool.eq_false_iff.mpr (mt (verify_altered_iff hok (csum_set body i m hi)).mp hm)
  case reordered => rw [verify, verify, csum_perm hperm]

/-! The frame of a payload (R132, R133, R137). -/

/-- What follows the direction byte in the frame of a payload: the payload and the checksum (R132). -/
def encodedRest (P : List Byte) : List Byte := P ++ [csum (lengthOf P :: 0x00#8 :: P)]

/-- The body of the frame of a payload: direction 0x00, then the rest (R132). -/
def encodedBody (P : List Byte) : List Byte := 0x00#8 :: encodedRest P

/-- A frame is ENCODE's exactly when it is the start marker, the length byte and the body of a payload that fits. -/
theorem encodeFrame_eq_some_iff {P F : List Byte} :
    encodeFrame P = some F ↔ P.length ≤ 253 ∧ F = 0x01#8 :: lengthOf P :: encodedBody P := by
  refine ⟨encodeFrame_some, ?_⟩
  rintro ⟨hlen, rfl⟩
  exact if_pos hlen

theorem encodeFrame_eq_none_iff {P : List Byte} : encodeFrame P = none ↔ 253 < P.length := by
  rw [encodeFrame, ite_eq_right_iff]
  simp only [Config.maxPayload, reduceCtorEq, imp_false, not_le]

theorem toNat_lengthOf {P : List Byte} (h : P.length ≤ 253) : (lengthOf P).toNat = P.length + 2 := by
  rw [lengthOf, BitVec.toNat_ofNat, Nat.mod_eq_of_lt (by omega)]

theorem length_encodedBody (P : List Byte) : (encodedBody P).length = P.length + 2 := by
  simp [encodedBody, encodedRest]

/-- The checksum over the length byte and the body is zero (R133 g). -/
theorem csum_encodedBody (P : List Byte) : csum (lengthOf P :: encodedBody P) = 0x00#8 :=
  csum_concat_csum (lengthOf P :: 0x00#8 :: P)

theorem verify_encodedBody (P : List Byte) : (verify (lengthOf P) (encodedBody P)).2 = true := by
  rw [verify_snd_iff, verify_fst, csum_encodedBody]

@[simp] theorem payloadOf_encodedBody (P : List Byte) : payloadOf (encodedBody P) = P := by
  simp [payloadOf, encodedBody, encodedRest]

/-- Two payloads with one frame are one, since the frame's body gives the payload back (R133 h). -/
theorem encodeFrame_injective {P Q F : List Byte} (hP : encodeFrame P = some F) (hQ : encodeFrame Q = some F) :
    P = Q := by
  obtain ⟨-, rfl⟩ := encodeFrame_eq_some_iff.mp hP
  obtain ⟨-, hF⟩ := encodeFrame_eq_some_iff.mp hQ
  have hbody : encodedBody P = encodedBody Q := congrArg (List.drop 2) hF
  rw [← payloadOf_encodedBody P, hbody, payloadOf_encodedBody]

/-- Settles O39: each part of the shape is read off the marker, the length byte and the body. -/
theorem encodeShape : Obligations.EncodeShape := by
  refine ⟨fun P hP => ?shape, fun _ _ _ => encodeFrame_injective, fun _ => encodeFrame_eq_none_iff⟩
  case shape =>
    refine ⟨_, encodeFrame_eq_some_iff.mpr ⟨hP, rfl⟩, ?length, rfl, ?lengthByte, rfl, ?payload, ?checksum,
      csum_encodedBody P⟩
    case length => simp [length_encodedBody]
    case lengthByte => simp [toNat_lengthOf hP]
    case payload => simp [encodedBody, encodedRest]
    case checksum =>
      have hsummed : ((0x01#8 :: lengthOf P :: encodedBody P).drop 1).take (P.length + 2) = lengthOf P :: 0x00#8 :: P := by
        simp [encodedBody, encodedRest]
      rw [hsummed]
      exact List.getLast?_concat (l := 0x01#8 :: lengthOf P :: 0x00#8 :: P)

/-- Settles O40: the verdict on the body ENCODE made is good, and its payload is the one given. -/
theorem codecRoundTrip : Obligations.CodecRoundTrip := by
  intro P hP
  refine ⟨_, lengthOf P, encodedBody P, encodeFrame_eq_some_iff.mpr ⟨hP, rfl⟩, rfl, ?_⟩
  rw [decodeBody, verify_encodedBody, payloadOf_encodedBody]
  rfl

/-! The frame of a payload as the row FRAME.REQ (R111, R132). -/

theorem length_encodedRest {P : List Byte} (h : P.length ≤ 253) :
    (encodedRest P).length = (lengthOf P).toNat - 1 := by
  rw [toNat_lengthOf h, encodedRest, List.length_append]; rfl

/-- With any bytes after it, the frame decodes to its row, which encodes back to it. -/
theorem decode_wire_encodeFrame {P F : List Byte} (tail : List Byte) (h : encodeFrame P = some F) :
    (Instr.frameReq (lengthOf P) (encodedRest P)).wellFormed = true ∧
      encode (.frameReq (lengthOf P) (encodedRest P)) = F ∧
      decode .wire (F ++ tail) = .ok (.frameReq (lengthOf P) (encodedRest P), tail) := by
  obtain ⟨hP, rfl⟩ := encodeFrame_eq_some_iff.mp h
  have hwf : (Instr.frameReq (lengthOf P) (encodedRest P)).wellFormed = true :=
    beq_iff_eq.mpr (length_encodedRest hP)
  exact ⟨hwf, rfl, decode_eq_ok_iff.mpr ⟨hwf, rfl, rfl⟩⟩

/-- Settles O42: the row is the length byte and what follows the direction byte. -/
theorem encodedFrameIsFrameReq : Obligations.EncodedFrameIsFrameReq := by
  intro P F tail h
  obtain ⟨hwf, henc, hdec⟩ := decode_wire_encodeFrame tail h
  exact ⟨_, _, hdec, toNat_lengthOf (encodeFrame_some h).1, List.dropLast_concat, hwf, henc⟩

end Sys2Proof.Proofs
end

section
/-!
PROOFS. A frame ENCODE made is read back (R137, R184): `readFrame` collects its body in RX_BUF, the check finds nothing
wrong with it, and it is acknowledged.
-/

namespace Sys2Proof.Proofs

open Sys2Proof.Machine Sys2Proof.Laws

/-- The body collected is what stands in RX_BUF up to RX_CNT (R28). -/
theorem rxBody_eq_of_read {s : State} {body : List Byte} (hcnt : s.rxCnt.toNat = body.length)
    (hread : ∀ i < body.length, Memory.read s.mem (rxBufBase + i) = body[i]?) : s.rxBody = body := by
  refine List.ext_getElem (by rw [length_rxBody, hcnt]) fun i _ hi => ?_
  simp [State.rxBody, State.bufByte, hread i hi, hi]

/-- After the bytes of a frame with a body, the body is collected and awaits its check (R177). -/
theorem takeBytes_wireBytes_collected {s : State} {len dir : Byte} {rest : List Byte}
    (hlen : (dir :: rest).length = len.toNat) (hp : s.ph = .rfSync) :
    ∃ t, s.takeBytes (wireBytes len dir rest) = t ∧ t.rxBody = dir :: rest ∧ t.rxLen = len ∧
      t.acc = csum (dir :: rest) ∧ t.status = s.status ∧ t.rxq = s.rxq ∧ t.txLog = s.txLog ∧ t.ph = .rfCheck := by
  obtain ⟨t, ht, he, hmem⟩ := takeBytes_frame s len dir rest (Nat.eq_sub_of_add_eq hlen) hp
  rw [← hlen, List.take_length] at he hmem
  have hcnt : t.rxCnt.toNat = (dir :: rest).length := by rw [he, hlen]
  refine ⟨t, ht, rxBody_eq_of_read hcnt fun i hi => ?read, ?_⟩
  case read =>
    simp only [hmem, rxBufBase, Nat.le_add_right, Nat.add_lt_add_iff_left, hi, and_self, if_true, Nat.add_sub_cancel_left]
  rw [he]
  exact ⟨rfl, rfl, rfl, rfl, rfl, rfl⟩

/-- A frame that is not truncated is checked and acknowledged (R179, R182). -/
theorem finishRead_of_not_truncated {s : State} (hp : s.ph = .rfCheck) (htrn : s.flag .trn = false) :
    s.finishRead = s.checkFrame.ackFrame := by
  have hack : s.checkFrame.ph = .rfAck := if_pos (by simp [State.ackDue, htrn])
  rw [State.finishRead, if_pos hp, if_pos hack]

/-- The check finds nothing wrong with a body of at least two bytes whose verdict is good (R179). -/
theorem goodFrame_checkFrame {s : State} (hacc : s.acc ^^^ s.rxLen = 0x00#8) (hlen : 1 < s.rxLen.toNat)
    (hcse : s.flag .cse = false) (htrn : s.flag .trn = false) (hsht : s.flag .sht = false) :
    s.checkFrame.goodFrame = true := by
  simp [State.goodFrame, flag_checkFrame, hacc, hcse, htrn, hsht, hlen]

/-- A frame that can be trusted is returned with its payload (R26, R183). -/
theorem readResult_of_goodFrame {s : State} (h : s.goodFrame = true) : s.readResult = some s.pay := by
  simp only [State.goodFrame, Bool.and_eq_true] at h
  obtain ⟨⟨⟨hrxf, -⟩, -⟩, -⟩ := h
  exact if_pos hrxf

/-- What `readFrame` over a whole frame with a good verdict leaves: the body in RX_BUF, a frame to be trusted, one
acknowledgment sent (R179, R182, R183). -/
theorem readWhole_of_verify {s : State} {len dir : Byte} {rest : List Byte} (hlen : (dir :: rest).length = len.toNat)
    (hlong : 1 < len.toNat) (hok : (verify len (dir :: rest)).2 = true) (hp : s.ph = .rfSync)
    (hcse : s.flag .cse = false) (htrn : s.flag .trn = false) (hsht : s.flag .sht = false) :
    ∃ t, s.readWhole (wireBytes len dir rest) = t ∧ t.rxBody = dir :: rest ∧ t.goodFrame = true ∧ t.rxq = s.rxq ∧
      t.txLog = s.txLog ++ [0x06#8] ∧ t.ph = .finish := by
  obtain ⟨u, hu, hbody, hlenU, hacc, hstatus, hrxq, hlog, hph⟩ := takeBytes_wireBytes_collected hlen hp
  have hflag := State.flag_congr hstatus
  have hread : s.readWhole (wireBytes len dir rest) = u.checkFrame.ackFrame := by
    rw [State.readWhole, hu, finishRead_of_not_truncated hph ((hflag .trn).trans htrn)]
  have haccU : u.acc ^^^ u.rxLen = 0x00#8 := by rw [hacc, hlenU]; exact verify_snd_iff.mp hok
  have hgood : u.checkFrame.goodFrame = true :=
    goodFrame_checkFrame haccU (hlenU ▸ hlong) ((hflag .cse).trans hcse) ((hflag .trn).trans htrn)
      ((hflag .sht).trans hsht)
  refine ⟨_, hread, hbody, hgood, hrxq, ?log, rfl⟩
  case log => rw [← hlog]; rfl

/-- In RF_SYNC the move over an encoded frame takes exactly its bytes from the queue (R95, R170; log 9). -/
theorem frameStep_encodeFrame {s : State} {P F q : List Byte} (h : encodeFrame P = some F) (hp : s.ph = .rfSync)
    (hq : s.rxq = F ++ q) :
    frameStep s = .next (State.readWhole { s with rxq := q } (wireBytes (lengthOf P) 0x00#8 (encodedRest P))) := by
  obtain ⟨-, -, hdec⟩ := decode_wire_encodeFrame q h
  obtain ⟨hP, rfl⟩ := encodeFrame_eq_some_iff.mp h
  have hlenByte : s.rxq[1]? = some (lengthOf P) := by rw [hq]; rfl
  have hrest : s.rxq.drop ((lengthOf P).toNat + 2) = q := by
    rw [hq, toNat_lengthOf hP, ← length_encodedBody]
    exact List.drop_left (l₁ := encodedBody P)
  rw [frameStep_of_fetchFrame (fetchFrame_rfSync hp (hq ▸ hdec) hlenByte), hrest]
  exact exec_frameReq_rfSync hp

/-- Settles O29: the move reads the frame's own bytes, and the verdict on what ENCODE made is good. -/
theorem encodedFrameIsReadBack : Obligations.EncodedFrameIsReadBack := by
  intro s P F q h hp hq hcse htrn hsht
  have hL := toNat_lengthOf (encodeFrame_some h).1
  obtain ⟨t, ht, hbody, hgood, hrxq, hlog, hph⟩ :=
    readWhole_of_verify (s := { s with rxq := q }) (hL ▸ length_encodedBody P) (by omega) (verify_encodedBody P) hp
      hcse htrn hsht
  have hmove : runMove .frame s = .next t := ht ▸ frameStep_encodeFrame h hp hq
  have hpay : t.pay = P := by rw [State.pay, hbody]; exact payloadOf_encodedBody P
  have hresult : t.readResult = some P := by rw [readResult_of_goodFrame hgood, hpay]
  have hdir : t.rxDir = some 0x00#8 := by rw [State.rxDir, hbody]; rfl
  exact ⟨t, hmove, hresult, hpay, hgood, hdir, hrxq, hlog, hph⟩

end Sys2Proof.Proofs
end

section
/-!
PROOFS. The link primitives and the timer (41_link_primitives.md). Which of the engine and TIME has a step is said once
per kind of phase: a wait on a byte belongs to the engine exactly while a byte is queued and to TIME otherwise, and the
timed clock edge adds to that only the test of the timer.
-/

namespace Sys2Proof.Proofs

open Sys2Proof.Machine Sys2Proof.Laws

/-! Who is enabled (R158, R159). -/

theorem rxAvail_eq_true_iff {s : State} : s.rxAvail = true ↔ s.rxq ≠ [] := by simp [State.rxAvail]

theorem rxAvail_eq_false_iff {s : State} : s.rxAvail = false ↔ s.rxq = [] := by simp [State.rxAvail]

/-- In a wait on a byte the queue alone decides: the engine while it holds a byte, TIME while it does not. -/
theorem enabled_of_waiting {s : State} (hw : s.waiting = true) (hp : s.ph ≠ .canGap) :
    s.engineEnabled = s.rxAvail ∧ s.expireEnabled = !s.rxAvail := by
  simp only [State.waiting, State.engineEnabled, State.expireEnabled] at hw ⊢
  cases h : s.ph <;> simp_all

/-- The pause after a cancel is TIME's alone, whatever is queued (R155, R214). -/
theorem enabled_canGap {s : State} (hp : s.ph = .canGap) : s.engineEnabled = false ∧ s.expireEnabled = true := by
  simp [State.engineEnabled, State.expireEnabled, hp]

theorem enabled_idle {s : State} (hp : s.ph = .idle) : s.engineEnabled = false ∧ s.expireEnabled = false := by
  simp [State.engineEnabled, State.expireEnabled, hp]

/-- Where nothing is waited for and a command runs, the step is the engine's. -/
theorem enabled_of_not_waiting {s : State} (hw : s.waiting = false) (hp : s.ph ≠ .idle) :
    s.engineEnabled = true ∧ s.expireEnabled = false := by
  simp only [State.waiting, State.engineEnabled, State.expireEnabled] at hw ⊢
  cases h : s.ph <;> simp_all

/-- The engine and TIME are never enabled together. -/
theorem engineEnabled_eq_false_of_expireEnabled {s : State} (h : s.expireEnabled = true) : s.engineEnabled = false := by
  by_cases hgap : s.ph = .canGap
  · exact (enabled_canGap hgap).1
  by_cases hidle : s.ph = .idle
  · exact (enabled_idle hidle).1
  cases hw : s.waiting with
  | true =>
    obtain ⟨hengine, hexpire⟩ := enabled_of_waiting hw hgap
    rw [hengine]
    simpa [hexpire] using h
  | false => simp [(enabled_of_not_waiting hw hidle).2] at h

/-- An engine without a step rests between commands, sits in the cancel pause, or lacks the byte it waits for. -/
theorem rest_or_noByte_of_not_engineEnabled {s : State} (h : s.engineEnabled = false) :
    s.ph = .idle ∨ s.ph = .canGap ∨
      (s.ph = .hsWait ∨ s.ph = .probeGap ∨ s.ph = .rfSync ∨ s.ph = .rfLen ∨ s.ph = .rfBody) ∧ s.rxAvail = false := by
  simp only [State.engineEnabled] at h
  cases hp : s.ph <;> simp_all

/-- An engine step that is not enabled changes nothing (log 3). -/
theorem engineStep_of_not_enabled {s : State} (h : s.engineEnabled = false) : engineStep s = .next s := by
  obtain hp | hp | ⟨hp, havail⟩ := rest_or_noByte_of_not_engineEnabled h
  · simp only [engineStep, hp]
  · simp only [engineStep, hp]
  · have hhead := consumeHead_nil (rxAvail_eq_false_iff.mp havail)
    obtain hp | hp | hp | hp | hp := hp <;> simp [engineStep, hp, hhead, havail]

/-- A TIME step that is not enabled changes nothing (log 3). -/
theorem expireStep_of_not_enabled {s : State} (h : s.expireEnabled = false) : expireStep s = .next s := by
  simp [expireStep, h]

/-- Settles O32: one lemma per kind of phase, and one per agent without a step. -/
theorem oneOfEngineAndTimeIsEnabled : Obligations.OneOfEngineAndTimeIsEnabled := by
  refine fun s => ⟨fun hw hp => ?byteWait, enabled_canGap, enabled_idle, enabled_of_not_waiting,
    engineStep_of_not_enabled, expireStep_of_not_enabled⟩
  case byteWait =>
    obtain ⟨hengine, hexpire⟩ := enabled_of_waiting hw hp
    rw [hengine, hexpire, Bool.not_eq_true']
    exact ⟨rxAvail_eq_true_iff, rxAvail_eq_false_iff⟩

/-! The byte wait's budget (R152; log 5). -/

theorem expireStep_rfLen {s : State} (hp : s.ph = .rfLen) (hq : s.rxq = []) :
    expireStep s = .next (s.byteExpiry State.lengthStall) := by
  simp [expireStep, State.expireEnabled, hp, rxAvail_eq_false_iff.mpr hq]

theorem expireStep_rfBody {s : State} (hp : s.ph = .rfBody) (hq : s.rxq = []) :
    expireStep s = .next (s.byteExpiry State.bodyStall) := by
  simp [expireStep, State.expireEnabled, hp, rxAvail_eq_false_iff.mpr hq]

/-- With budget left the expiry is counted and the wait starts again, whatever would follow a stall. -/
theorem byteExpiry_of_budget_left {s : State} (stalled : State → State) (hb : s.brc + 1#8 ≠ s.brb) :
    s.byteExpiry stalled = { s with brc := s.brc + 1#8, tmr := s.tByte } := if_neg hb

/-- The expiry that uses up the budget stalls the read, and BRC stands at the budget. -/
theorem byteExpiry_of_budget_used {s : State} (stalled : State → State) (hb : s.brc + 1#8 = s.brb) :
    s.byteExpiry stalled = stalled { s with brc := s.brb } := by
  rw [State.byteExpiry, if_pos hb, hb]

/-- RF_LEN and RF_BODY differ only in what a stall does, and either stall leaves the phase and keeps BRC (R176, R178). -/
theorem expireStep_byteWait {s : State} (h : s.ph = .rfLen ∨ s.ph = .rfBody) (hq : s.rxq = []) :
    ∃ stalled, expireStep s = .next (s.byteExpiry stalled) ∧ ∀ t, (stalled t).ph ≠ s.ph ∧ (stalled t).brc = t.brc := by
  obtain hp | hp := h
  · exact ⟨_, expireStep_rfLen hp hq, fun _ => ⟨by rw [hp]; nofun, rfl⟩⟩
  · exact ⟨_, expireStep_rfBody hp hq, fun _ => ⟨by rw [hp]; nofun, rfl⟩⟩

/-- Settles O22: the expiry counts, and the comparison with the budget decides between waiting again and the stall. -/
theorem byteWaitBudget : Obligations.ByteWaitBudget := by
  intro s h hq
  obtain ⟨stalled, hstep, hstall⟩ := expireStep_byteWait h hq
  refine ⟨fun hb => ?left, fun hb => ⟨_, hstep, ?used⟩⟩
  case left => exact hstep.trans (congrArg _ (byteExpiry_of_budget_left stalled hb))
  case used => rw [byteExpiry_of_budget_used stalled hb]; exact hstall _

/-! The link's delivery (R157). -/

theorem hasRoom_of_unbounded (hcap : Config.rxFifoDepthPred = none) (n : Nat) : Config.hasRoom n = true := by
  simp [Config.hasRoom, hcap]

theorem hasRoom_of_bounded {d : Nat} (hcap : Config.rxFifoDepthPred = some d) (n : Nat) :
    Config.hasRoom n = decide (n < d + 1) := by
  simp [Config.hasRoom, hcap]

theorem deliver_of_hasRoom {s : State} (b : Byte) (h : Config.hasRoom s.rxq.length = true) :
    s.deliver b = { s with rxq := s.rxq ++ [b] } := if_pos h

theorem deliver_of_full {s : State} (b : Byte) (h : Config.hasRoom s.rxq.length = false) :
    s.deliver b = s.setFlag .fov := if_neg (Bool.eq_false_iff.mp h)

/-- Settles O31: an unbounded queue always has room, and a bounded one below its capacity. -/
theorem deliverAppendsOrOverflows : Obligations.DeliverAppendsOrOverflows := by
  refine fun s b => ⟨fun hcap => ?unbounded, fun d hcap => ⟨fun hlt => ?room, fun hfull => ?full⟩⟩
  case unbounded => exact congrArg _ (deliver_of_hasRoom b (hasRoom_of_unbounded hcap _))
  case room => exact congrArg _ (deliver_of_hasRoom b ((hasRoom_of_bounded hcap _).trans (decide_eq_true hlt)))
  case full => exact congrArg _ (deliver_of_full b ((hasRoom_of_bounded hcap _).trans (decide_eq_false hfull)))

/-! The timed form (R151, R155, R156; log 4). -/

/-- A clock edge is the engine's step wherever it has one: a queued byte wins over an expiry (R151, R156). -/
theorem clockEdge_of_engineEnabled {s : State} (h : s.engineEnabled = true) : clockEdge s = engineStep s := if_pos h

/-- A wait whose timer stands at 0 ends at the clock edge (R151, R155). -/
theorem clockEdge_of_expired {s : State} (h : s.expireEnabled = true) (ht : s.tmr = 0#16) :
    clockEdge s = expireStep s := by
  simp [clockEdge, engineEnabled_eq_false_of_expireEnabled h, h, ht]

/-- While the timer of a wait runs, a clock edge that finds no byte does nothing. -/
theorem clockEdge_of_running {s : State} (h : s.expireEnabled = true) (ht : s.tmr ≠ 0#16) : clockEdge s = .next s := by
  simp [clockEdge, engineEnabled_eq_false_of_expireEnabled h, ht]

theorem clockEdge_of_none_enabled {s : State} (he : s.engineEnabled = false) (hx : s.expireEnabled = false) :
    clockEdge s = .next s := by
  simp [clockEdge, he, hx]

/-- Every clock edge, whether it answers a next state or not, is a move of the untimed form or none. -/
theorem clockEdge_eq (s : State) :
    clockEdge s = engineStep s ∨ (s.expireEnabled = true ∧ clockEdge s = expireStep s) ∨ clockEdge s = .next s := by
  cases he : s.engineEnabled with
  | true => exact .inl (clockEdge_of_engineEnabled he)
  | false =>
    cases hx : s.expireEnabled with
    | false => exact .inr (.inr (clockEdge_of_none_enabled he hx))
    | true =>
      by_cases ht : s.tmr = 0#16
      · exact .inr (.inl ⟨rfl, clockEdge_of_expired hx ht⟩)
      · exact .inr (.inr (clockEdge_of_running hx ht))

theorem tickDown_of_running {s : State} (hw : s.waiting = true) (ht : s.tmr ≠ 0#16) :
    s.tickDown = { s with tmr := s.tmr - 1#16 } := by
  simp [State.tickDown, hw, ht]

/-- A tick does nothing outside a wait, and does not count below 0 (R138 f). -/
theorem tickDown_of_stopped {s : State} (h : s.waiting = false ∨ s.tmr = 0#16) : s.tickDown = s := by
  obtain hw | ht := h
  · simp [State.tickDown, hw]
  · rw [State.tickDown, if_neg fun hrun => hrun.2 ht]

/-- Settles O34: one lemma for each branch of the clock edge and of the tick. -/
theorem clockEdgeRefinesUntimed : Obligations.ClockEdgeRefinesUntimed := fun s =>
  ⟨clockEdge_eq s, clockEdge_of_engineEnabled, clockEdge_of_expired, clockEdge_of_running,
    fun hw ht => congrArg _ (tickDown_of_running hw ht), fun h => congrArg _ (tickDown_of_stopped h)⟩

end Sys2Proof.Proofs
end

section
/-!
PROOFS. The steps of `readFrame` one by one (R173 to R182), and over a whole frame (R170): the bytes of the frame, the
check, and the acknowledgment where it is due.
-/

namespace Sys2Proof.Proofs

open Sys2Proof.Machine Sys2Proof.Laws

/-- Settles O18: each of the two rows is one operation. -/
theorem startMarkerHunt : Obligations.StartMarkerHunt := by
  refine ⟨fun _ => rfl, fun s hp => ⟨⟨s.startMarker, ?marker, rfl⟩, fun b => ⟨s.desyncByte, ?skip, rfl⟩⟩⟩
  case marker => simp only [exec, execSof, hp, if_true]
  case skip => simp only [exec, execSyncSkip, hp, if_true]

theorem expireStep_rfSync {s : State} (hp : s.ph = .rfSync) (hq : s.rxq = []) : expireStep s = .next s.syncStall := by
  simp [expireStep, State.expireEnabled, hp, rxAvail_eq_false_iff.mpr hq]

/-- Settles O19: a stall before the start marker raises TMO and ends the command. -/
theorem syncExpiryIsNoFrame : Obligations.SyncExpiryIsNoFrame := fun _ hp hq => expireStep_rfSync hp hq

/-- The expiry that uses up the budget is the stall of its phase (R152). -/
theorem expireStep_lengthStall {s : State} (hp : s.ph = .rfLen) (hq : s.rxq = []) (hb : s.brc + 1#8 = s.brb) :
    expireStep s = .next (State.lengthStall { s with brc := s.brb }) := by
  rw [expireStep_rfLen hp hq, byteExpiry_of_budget_used _ hb]

theorem expireStep_bodyStall {s : State} (hp : s.ph = .rfBody) (hq : s.rxq = []) (hb : s.brc + 1#8 = s.brb) :
    expireStep s = .next (State.bodyStall { s with brc := s.brb }) := by
  rw [expireStep_rfBody hp hq, byteExpiry_of_budget_used _ hb]

theorem engineStep_lengthByte {s : State} {l : Byte} {q : List Byte} (hp : s.ph = .rfLen) (hq : s.rxq = l :: q) :
    engineStep s = .next (State.lengthByte { s with rxq := q } l) := by
  rw [engineStep_takeByte hq (.inr (.inl hp))]
  simp only [State.takeByte, hp]

theorem engineStep_bodyByte {s : State} {c : Byte} {q : List Byte} (hp : s.ph = .rfBody) (hq : s.rxq = c :: q)
    (hlt : s.rxCnt.toNat < s.rxLen.toNat) : engineStep s = .next (State.bodyByte { s with rxq := q } c) := by
  rw [engineStep_takeByte hq (.inr (.inr ⟨hp, hlt⟩))]
  simp only [State.takeByte, hp]

/-- Settles O20: the byte taken, or the stall. -/
theorem lengthByteRead : Obligations.LengthByteRead := fun _ hp =>
  ⟨fun _ _ hq => ⟨_, engineStep_lengthByte hp hq, rfl⟩, fun hq hb => ⟨_, expireStep_lengthStall hp hq hb, rfl⟩⟩

/-- Settles O21: the byte taken, which is written to one cell, or the stall. -/
theorem bodyByteRead : Obligations.BodyByteRead := fun s hp =>
  ⟨fun c _ hq hlt => ⟨_, engineStep_bodyByte hp hq hlt, rfl, Memory.read_write s.mem (0x200 + s.rxCnt.toNat) c⟩,
    fun hq hb => ⟨_, expireStep_bodyStall hp hq hb, rfl⟩⟩

/-- What the check leaves (R179). -/
theorem checkFrame_eq (s : State) :
    s.checkFrame =
      { s with
        acc := s.acc ^^^ s.rxLen
        status := s.status ||| (if s.acc ^^^ s.rxLen = 0#8 then 0#16 else 0x0010#16) |||
          (if s.rxLen.toNat < 2 then 0x0040#16 else 0#16) ||| 0x0008#16
        diagCsum := if s.acc ^^^ s.rxLen = 0#8 then s.diagCsum
          else if s.diagCsum = 255#8 then 255#8 else s.diagCsum + 1#8
        ph := if s.flag .trn = false ∨ s.cfg.getLsbD 5 = true then .rfAck else .finish } := by
  rw [checkFrame_frame, status_checkFrame, ackDue_eq]
  simp only [decide_eq_true_eq, satInc, bne_iff_ne, ne_eq, ite_not]

/-- Settles O23: what the check leaves. -/
theorem checkSetsFlags : Obligations.CheckSetsFlags := fun s hp => by
  rw [← checkFrame_eq s]
  simp only [runMove, engineStep, hp]

/-- Settles O24: the engine's step in RF_ACK. -/
theorem frameIsAcknowledged : Obligations.FrameIsAcknowledged := fun s hp => by
  simp only [runMove, engineStep, hp]
  rfl

/-- The check and the acknowledgment end the read in FINISH, whether the acknowledgment is due or not (R179, R182). -/
theorem finishRead_eq {s : State} (hp : s.ph = .rfCheck) :
    s.finishRead =
      { s.checkFrame with
        txLog := if s.flag .trn = false ∨ s.cfg.getLsbD 5 = true then s.txLog ++ [0x06#8] else s.txLog
        ph := .finish } := by
  have hph : s.checkFrame.ph = if s.flag .trn = false ∨ s.cfg.getLsbD 5 = true then .rfAck else .finish := by
    rw [checkFrame_eq]
  by_cases hdue : s.flag .trn = false ∨ s.cfg.getLsbD 5 = true
  · rw [if_pos hdue] at hph
    rw [State.finishRead, if_pos hp, if_pos hph, if_pos hdue]
    rfl
  · rw [if_neg hdue] at hph
    rw [State.finishRead, if_pos hp, if_neg (by rw [hph]; nofun), if_neg hdue, ← hph]
    rfl

/-- Settles O26: the bytes of the frame, then the check and the acknowledgment, for either row. -/
theorem wholeFrameIsRead : Obligations.WholeFrameIsRead := by
  rintro s len rest hl hp i dir hi _ rfl
  obtain ⟨u, hu, he, hmem⟩ := takeBytes_frame s len dir rest hl hp
  have hexec : exec i s = .next u.finishRead := by
    rw [← hu]
    obtain ⟨rfl, rfl⟩ | ⟨rfl, rfl⟩ := hi
    · exact exec_frameReq_rfSync hp
    · exact exec_frameRes_rfSync hp
  have hph : u.ph = .rfCheck := by rw [he]
  have hbody : ((dir :: rest).take len.toNat).length = len.toNat := by
    rw [List.length_take, List.length_cons]; omega
  refine ⟨_, hexec, ?state, hbody, ?mem⟩
  case state =>
    rw [finishRead_eq hph, checkFrame_eq, he]
    rfl
  case mem => rwa [finishRead_eq hph]

end Sys2Proof.Proofs
end

section
/-!
PROOFS. The start of a wait (R152, R172, R272): every move either leaves the phase and takes no byte, or ends in
`enter`, which loads the timer and clears the expiry count.
-/

namespace Sys2Proof.Proofs

open Sys2Proof.Machine Sys2Proof.Laws

/-- The timer and the expiry count stand as the wait of the phase starts; a phase that does not wait asks nothing. -/
structure Fresh (s : State) : Prop where
  ticks : s.tmr = s.waitTicks s.ph
  expiries : s.brc = s.waitExpiries s.ph

theorem fresh_enter (s : State) (p : Phase) : Fresh (s.enter p) := ⟨by cases p <;> rfl, by cases p <;> rfl⟩

/-- In TX nothing is waited for, and the last byte starts the handshake wait (R203). -/
theorem fresh_sendByte {s : State} (n : Nat) (b : Byte) (hp : s.ph = .tx) : Fresh (s.sendByte n b) := by
  simp only [State.sendByte]
  split
  · exact ⟨by simp [State.waitTicks, hp], by simp [State.waitExpiries, hp]⟩
  · exact fresh_enter _ _

/-- Every step of the engine that does anything starts the wait of its phase afresh. -/
theorem fresh_engineEdge {s t : State} (h : EngineEdge s t) : t = s ∨ Fresh t := by
  cases h with
  | rest | noByte => exact .inl rfl
  | sendByte h => exact .inr (fresh_sendByte _ _ h)
  | retryOrGiveUp => simp only [State.retryOrGiveUp]; split <;> exact .inr (fresh_enter _ _)
  | _ => exact .inr (fresh_enter _ _)

theorem fresh_engineRun {s t : State} (h : EngineRun s t) : t = s ∨ Fresh t :=
  h.keeps (P := fun u => u = s ∨ Fresh u)
    (fun _ _ hu he => (fresh_engineEdge he).elim (fun hv => hv ▸ hu) .inr) (.inl rfl)

/-- No wait is started: the phase is the same and nothing has left the queue. -/
structure GoesOn (s t : State) : Prop where
  ph : t.ph = s.ph
  queue : s.rxq.length ≤ t.rxq.length

theorem goesOn_refl (s : State) : GoesOn s s := ⟨rfl, le_rfl⟩

/-- What a move does to the wait: it goes on, or there is none between commands, or it starts afresh with the count of
its register, which the move leaves. -/
inductive WaitEdge (s t : State) : Prop
  | goesOn (h : GoesOn s t)
  | idle (h : t.ph = .idle)
  | fresh (h : Fresh t) (hregs : SamePayload s t)

theorem waitEdge_of_eq_or_fresh {s t : State} (h : t = s ∨ Fresh t) (hregs : SamePayload s t) : WaitEdge s t := by
  obtain rfl | hf := h
  · exact .goesOn (goesOn_refl t)
  · exact .fresh hf hregs

theorem waitEdge_expireEdge {s t : State} (h : ExpireEdge s t) : WaitEdge s t := by
  have hregs := samePayload_expireEdge h
  cases h with
  | notEnabled => exact .goesOn (goesOn_refl s)
  | waitAgain => exact .goesOn ⟨rfl, le_rfl⟩
  | _ => exact .fresh (fresh_enter _ _) hregs

theorem ph_storeEdge {idx : RegIndex} {s t : State} (h : StoreEdge idx s t) : t.ph = s.ph := by cases h <;> rfl

/-- Of the host's writes only an accepted command enters a phase, and none takes a byte (R245, R249). -/
theorem waitEdge_writeEdge {idx : RegIndex} {data : Word16} {s t : State} (h : WriteEdge idx data s t) :
    WaitEdge s t := by
  have hqueue := rxq_writeEdge h
  cases h with
  | recv | send | sendr => exact .fresh (fresh_enter _ _) { samePayload_refl s with }
  | store => exact .goesOn ⟨ph_storeEdge (store_cases idx data s), by rw [hqueue]⟩
  | _ => exact .goesOn ⟨rfl, le_rfl⟩

theorem goesOn_deliver (s : State) (b : Byte) : GoesOn s (s.deliver b) := by
  simp only [State.deliver]
  split
  · exact ⟨rfl, by simp⟩
  · exact ⟨rfl, le_rfl⟩

theorem waitEdge_runMove {m : Move} {s t : State} (h : runMove m s = .next t) : WaitEdge s t := by
  cases runMove_cases h with
  | engine he | clkEngine he => exact waitEdge_of_eq_or_fresh (fresh_engineEdge he) (samePayload_engineEdge he)
  | frame hr => exact waitEdge_of_eq_or_fresh (fresh_engineRun hr) (samePayload_engineRun hr)
  | expire he | clkExpire _ he => exact waitEdge_expireEdge he
  | tick | clkIdle | hostRead => exact .goesOn ⟨rfl, le_rfl⟩
  | deliver b => exact .goesOn (goesOn_deliver s b)
  | hostWrite _ _ hw => exact waitEdge_writeEdge hw
  | rst => exact .idle rfl

/-- Settles O33: after a move that enters the phase or takes a byte the wait does not go on, so it starts afresh. -/
theorem waitStartsAfresh : Obligations.WaitStartsAfresh := by
  intro m s t h hstart
  cases waitEdge_runMove h with
  | goesOn hon => exact absurd hstart (not_or.mpr ⟨not_not.mpr hon.ph, Nat.not_lt.mpr hon.queue⟩)
  | idle hp => simp [hp]
  | fresh hf hregs =>
    have ticks : ∀ p, t.ph = p → t.tmr = t.waitTicks p := by rintro _ rfl; exact hf.ticks
    have expiries : ∀ p, t.ph = p → t.brc = t.waitExpiries p := by rintro _ rfl; exact hf.expiries
    exact ⟨fun hp => (ticks _ hp).trans hregs.tHs, fun hp => (ticks _ hp).trans hregs.tPgap,
      fun hp => (ticks _ hp).trans hregs.tDgap, fun hp => (ticks _ hp).trans hregs.timeout,
      fun hp => ⟨(ticks _ hp).trans hregs.tByte, expiries _ hp⟩,
      fun hp => ⟨(ticks _ hp).trans hregs.tByte, expiries _ hp⟩⟩

end Sys2Proof.Proofs
end

section
/-!
PROOFS. The invariant of the receive result (R171, R177, R179, R183): what it says of a state is one clause for the phase
the engine is in, `ReadOk`, and moving to a phase keeps it when that phase's clause is met. No clause looks further than
the result's registers, the body in RX_BUF and the result's flags, so whatever leaves those and the phase keeps it too.
-/

namespace Sys2Proof.Proofs

open Sys2Proof.Machine Sys2Proof.Safety Sys2Proof.Laws

/-- The flags in which `readFrame` gives its result (R183). -/
def resultFlags : List Flag := [.rxf, .cse, .trn, .sht, .tmo, .lst]

/-- Nothing of a result has been written (R171). -/
structure Untouched (s : State) : Prop where
  len : s.rxLen = 0#8
  cnt : s.rxCnt = 0#8
  flags : ∀ f ∈ resultFlags, s.flag f = false

/-- A body is being collected: ACC is its checksum, and no flag but TRN can have been set (R177, R178). -/
structure Collecting (s : State) : Prop where
  acc : s.acc = csum s.rxBody
  flags : ∀ f ∈ resultFlags, f ≠ .trn → s.flag f = false

/-- A frame is complete exactly when it is not truncated (R28, R178). -/
structure Extent (s : State) : Prop where
  complete : s.flag .trn = false → s.rxCnt = s.rxLen
  truncated : s.flag .trn = true → s.rxCnt.toNat < s.rxLen.toNat

/-- A frame has been read, and the flags say what VERIFY says of its body (R179, R183 b). -/
structure Checked (s : State) : Prop extends Extent s where
  rxf : s.flag .rxf = true
  acc : s.acc = (verify s.rxLen s.rxBody).1
  cse : s.flag .cse = !(verify s.rxLen s.rxBody).2
  sht : s.flag .sht = decide (s.rxLen.toNat < 2)
  tmo : s.flag .tmo = false
  lst : s.flag .lst = false

/-- There is a checked frame or none, and in the second case at most one reason (R183). -/
structure Answered (s : State) : Prop where
  frame : s.flag .rxf = true → Checked s
  oneReason : s.flag .tmo = true → s.flag .lst = false

/-- What `ReadInv` says of a state in phase `p`. -/
def ReadOk (s : State) : Phase → Prop
  | .rfBody => Collecting s ∧ s.flag .trn = false
  | .rfCheck => Collecting s ∧ Extent s
  | .rfAck => Checked s
  | .finish | .idle => Answered s
  | _ => Untouched s

/-! The clauses are the invariant. -/

theorem Untouched.answered {s : State} (h : Untouched s) : Answered s where
  frame hrxf := by simp [h.flags .rxf (by decide)] at hrxf
  oneReason _ := h.flags .lst (by decide)

theorem Collecting.answered {s : State} (h : Collecting s) : Answered s where
  frame hrxf := by simp [h.flags .rxf (by decide)] at hrxf
  oneReason _ := h.flags .lst (by decide) (by decide)

theorem Checked.answered {s : State} (h : Checked s) : Answered s where
  frame _ := h
  oneReason _ := h.lst

/-- In every phase the result is one that `readFrame` may end with. -/
theorem answered_of_readOk {s : State} {p : Phase} (h : ReadOk s p) : Answered s := by
  cases p with
  | rfBody | rfCheck => exact h.1.answered
  | rfAck => exact h.answered
  | finish | idle => exact h
  | _ => exact h.answered

/-- The phases up to the length byte (R171). -/
theorem readOk_eq_untouched {s : State} {p : Phase} (hp : sendPhase p = true ∨ p = .rfSync ∨ p = .rfLen) :
    ReadOk s p = Untouched s := by
  cases p with
  | idle | rfBody | rfCheck | rfAck | finish => simp [sendPhase] at hp
  | _ => rfl

theorem untouched_of_readInv {s : State} (hr : ReadInv s)
    (hp : sendPhase s.ph = true ∨ s.ph = .rfSync ∨ s.ph = .rfLen) : Untouched s := by
  obtain ⟨hlen, hcnt, hrxf, hcse, htrn, hsht, htmo, hlst⟩ := hr.untouched hp
  exact ⟨hlen, hcnt, by simp [resultFlags, hrxf, hcse, htrn, hsht, htmo, hlst]⟩

theorem collecting_of_readInv {s : State} (hr : ReadInv s) (hp : s.ph = .rfBody ∨ s.ph = .rfCheck) : Collecting s := by
  obtain ⟨hacc, hrxf, hcse, hsht, htmo, hlst⟩ := hr.collecting hp
  exact ⟨hacc, by simp [resultFlags, hrxf, hcse, hsht, htmo, hlst]⟩

theorem checked_of_readInv {s : State} (hr : ReadInv s) (hrxf : s.flag .rxf = true) : Checked s := by
  obtain ⟨hacc, hcse, hsht, htmo, hlst⟩ := hr.verdict hrxf
  exact ⟨⟨hr.complete (.inr hrxf), hr.truncated (.inr hrxf)⟩, hrxf, hacc, hcse, hsht, htmo, hlst⟩

theorem readOk_of_readInv {s : State} {p : Phase} (hr : ReadInv s) (h : s.ph = p) : ReadOk s p := by
  subst h
  by_cases hb : sendPhase s.ph = true ∨ s.ph = .rfSync ∨ s.ph = .rfLen
  · rw [readOk_eq_untouched hb]
    exact untouched_of_readInv hr hb
  cases hp : s.ph with
  | rfBody => exact ⟨collecting_of_readInv hr (.inl hp), hr.reading hp⟩
  | rfCheck => exact ⟨collecting_of_readInv hr (.inr hp), hr.complete (.inl hp), hr.truncated (.inl hp)⟩
  | rfAck => exact checked_of_readInv hr (hr.checked hp)
  | finish | idle => exact ⟨checked_of_readInv hr, hr.oneReason⟩
  | _ => simp [hp, sendPhase] at hb

theorem readInv_of_readOk {s : State} (h : ReadOk s s.ph) : ReadInv s := by
  have clause : ∀ p, s.ph = p → ReadOk s p := by rintro _ rfl; exact h
  have answered := answered_of_readOk h
  have collecting : s.ph = .rfBody ∨ s.ph = .rfCheck → Collecting s := fun hp =>
    hp.elim (fun hp => (clause .rfBody hp).1) fun hp => (clause .rfCheck hp).1
  have extent : s.ph = .rfCheck ∨ s.flag .rxf = true → Extent s := fun hp =>
    hp.elim (fun hp => (clause .rfCheck hp).2) fun hrxf => (answered.frame hrxf).toExtent
  exact
    { untouched := fun hp => by
        rw [readOk_eq_untouched hp] at h
        simpa [h.len, h.cnt, resultFlags] using h.flags
      reading := fun hp => (clause .rfBody hp).2
      collecting := fun hp => by
        have hc := collecting hp
        exact ⟨hc.acc, by simpa [resultFlags] using hc.flags⟩
      complete := fun hp => (extent hp).complete
      truncated := fun hp => (extent hp).truncated
      checked := fun hp => (clause .rfAck hp).rxf
      verdict := fun hrxf =>
        have hc := answered.frame hrxf
        ⟨hc.acc, hc.cse, hc.sht, hc.tmo, hc.lst⟩
      oneReason := answered.oneReason }

/-- Up to the length byte an untouched result is all there is to say (R171). -/
theorem readInv_of_untouched {s : State} (h : Untouched s)
    (hp : sendPhase s.ph = true ∨ s.ph = .rfSync ∨ s.ph = .rfLen) : ReadInv s :=
  readInv_of_readOk (readOk_eq_untouched hp ▸ h)

/-! What leaves the result alone. -/

/-- The result's registers, the body and the result's flags stand. -/
structure SameResult (s t : State) : Prop where
  len : t.rxLen = s.rxLen
  cnt : t.rxCnt = s.rxCnt
  acc : t.acc = s.acc
  body : t.rxBody = s.rxBody
  flags : ∀ f ∈ resultFlags, t.flag f = s.flag f

theorem ne_of_mem_resultFlags {f g : Flag} (hf : f ∉ resultFlags) (hg : g ∈ resultFlags) : f ≠ g :=
  fun he => hf (he ▸ hg)

theorem sameResult_setFlag (s : State) {f : Flag} (hf : f ∉ resultFlags) : SameResult s (s.setFlag f) where
  len := rfl
  cnt := rfl
  acc := rfl
  body := rfl
  flags g hg := by simp [ne_of_mem_resultFlags hf hg]

theorem Untouched.congr {s t : State} (h : SameResult s t) (hs : Untouched s) : Untouched t where
  len := h.len.trans hs.len
  cnt := h.cnt.trans hs.cnt
  flags f hf := (h.flags f hf).trans (hs.flags f hf)

theorem Collecting.congr {s t : State} (h : SameResult s t) (hs : Collecting s) : Collecting t where
  acc := by rw [h.acc, h.body, hs.acc]
  flags f hf hne := (h.flags f hf).trans (hs.flags f hf hne)

theorem Extent.congr {s t : State} (h : SameResult s t) (hs : Extent s) : Extent t where
  complete htrn := by rw [h.cnt, h.len, hs.complete ((h.flags .trn (by decide)).symm.trans htrn)]
  truncated htrn := by rw [h.cnt, h.len]; exact hs.truncated ((h.flags .trn (by decide)).symm.trans htrn)

theorem Checked.congr {s t : State} (h : SameResult s t) (hs : Checked s) : Checked t where
  toExtent := hs.toExtent.congr h
  rxf := (h.flags .rxf (by decide)).trans hs.rxf
  acc := by rw [h.acc, h.len, h.body, hs.acc]
  cse := by rw [h.flags .cse (by decide), h.len, h.body, hs.cse]
  sht := by rw [h.flags .sht (by decide), h.len, hs.sht]
  tmo := (h.flags .tmo (by decide)).trans hs.tmo
  lst := (h.flags .lst (by decide)).trans hs.lst

theorem Answered.congr {s t : State} (h : SameResult s t) (hs : Answered s) : Answered t where
  frame hrxf := (hs.frame ((h.flags .rxf (by decide)).symm.trans hrxf)).congr h
  oneReason htmo := (h.flags .lst (by decide)).trans (hs.oneReason ((h.flags .tmo (by decide)).symm.trans htmo))

theorem readOk_congr {s t : State} {p : Phase} (h : SameResult s t) (hs : ReadOk s p) : ReadOk t p := by
  cases p with
  | rfBody => exact ⟨hs.1.congr h, (h.flags .trn (by decide)).trans hs.2⟩
  | rfCheck => exact ⟨hs.1.congr h, hs.2.congr h⟩
  | rfAck | finish | idle => exact hs.congr h
  | _ => exact hs.congr h

theorem readInv_congr {s t : State} (h : SameResult s t) (hp : t.ph = s.ph) (hr : ReadInv s) : ReadInv t :=
  readInv_of_readOk (readOk_congr h (readOk_of_readInv hr hp.symm))

/-- Moving to a phase keeps the invariant when the phase's clause is met. -/
theorem readInv_enter {s : State} {p : Phase} (h : ReadOk s p) : ReadInv (s.enter p) :=
  readInv_of_readOk (readOk_congr (s := s) (t := s.enter p) (p := p) ⟨rfl, rfl, rfl, rfl, fun _ _ => rfl⟩ h)

theorem bufByte_writeBuf (s : State) (a : Nat) (b : Byte) (i : Nat) :
    (s.writeBuf a b).bufByte i = if i = a then b else s.bufByte i := by
  simp only [State.bufByte, State.writeBuf, Memory.read_write]
  split <;> rfl

/-- The body is read from memory alone where all of it has been written (R28; log 8). -/
theorem rxBody_congr {s t : State} (hcnt : t.rxCnt = s.rxCnt)
    (hread : ∀ i < s.rxCnt.toNat, t.bufByte (rxBufBase + i) = s.bufByte (rxBufBase + i)) : t.rxBody = s.rxBody := by
  simp only [State.rxBody, hcnt]
  exact List.map_congr_left fun i hi => hread i (List.mem_range.mp hi)

theorem sameResult_advance {s : State} (m : Move) (hi : Inv s) : SameResult s (s.advance m) where
  len := rfl
  cnt := rfl
  acc := rfl
  body := rxBody_congr rfl fun i hlt => by
    obtain ⟨b, hb⟩ := Option.isSome_iff_exists.mp (hi.bodyWritten i hlt)
    simp [State.bufByte, hb]
  flags _ _ := rfl

theorem sameResult_storeEdge {idx : RegIndex} {s t : State} (h : StoreEdge idx s t) : SameResult s t := by
  cases h with
  | txBuf i w hi =>
    refine ⟨rfl, rfl, rfl, rxBody_congr rfl fun j hj => ?_, fun _ _ => rfl⟩
    have hne : rxBufBase + j ≠ txBufBase + i := by simp only [rxBufBase, txBufBase, txBufSize] at *; omega
    rw [bufByte_writeBuf, if_neg hne]
  | _ => exact ⟨rfl, rfl, rfl, rfl, fun _ _ => rfl⟩

theorem readInv_setFlag {s : State} {f : Flag} (hf : f ∉ resultFlags) (hr : ReadInv s) : ReadInv (s.setFlag f) :=
  readInv_congr (sameResult_setFlag s hf) rfl hr

theorem readInv_deliver {s : State} (b : Byte) (hr : ReadInv s) : ReadInv (s.deliver b) := by
  simp only [State.deliver]
  split
  · exact readInv_congr (s := s) ⟨rfl, rfl, rfl, rfl, fun _ _ => rfl⟩ rfl hr
  · exact readInv_setFlag (by decide) hr

theorem readInv_tickDown {s : State} (hr : ReadInv s) : ReadInv s.tickDown :=
  readInv_congr (s := s) ⟨rfl, rfl, rfl, rfl, fun _ _ => rfl⟩ rfl hr

theorem readInv_hostRead {s : State} (idx : RegIndex) (hr : ReadInv s) : ReadInv (s.hostRead idx) :=
  readInv_congr (s := s) ⟨rfl, rfl, rfl, rfl, fun _ _ => rfl⟩ rfl hr

theorem readInv_resetBlock (s : State) : ReadInv s.resetBlock :=
  readInv_congr (s := State.reset) ⟨rfl, rfl, rfl, rfl, fun _ _ => rfl⟩ rfl readInvAtReset

/-! Before the length byte. -/

/-- Accept clears the result of the command before (R171, R245). -/
theorem untouched_accept (s : State) (c : BitVec 2) : Untouched (s.accept c) where
  len := rfl
  cnt := rfl
  flags f hf :=
    have hb : f ≠ .busy := (ne_of_mem_resultFlags (by decide) hf).symm
    (getLsbD_acceptedStatus s.status f).trans (decide_eq_false hb)

theorem readInv_accept (s : State) (c : BitVec 2) : ReadInv (s.accept c) := by
  refine readInv_of_untouched (untouched_accept s c) ?_
  simp only [State.accept, State.enter_ph]
  split
  · exact .inl rfl
  · exact .inr (.inl rfl)

theorem readInv_writeEdge {idx : RegIndex} {data : Word16} {s t : State} (hr : ReadInv s) (h : WriteEdge idx data s t) :
    ReadInv t := by
  cases h with
  | overrun | illegal | tooLong => exact readInv_setFlag (by decide) hr
  | nop => exact hr
  | recv | send | sendr => exact readInv_accept s _
  | store =>
    have hstore := store_cases idx data s
    exact readInv_congr (sameResult_storeEdge hstore) (ph_storeEdge hstore) hr

theorem untouched_setFlag {s : State} {f : Flag} (hf : f ∉ resultFlags) (h : Untouched s) : Untouched (s.setFlag f) :=
  h.congr (sameResult_setFlag s hf)

theorem readInv_preSendCheck {s : State} (h : Untouched s) : ReadInv s.preSendCheck := by
  simp only [State.preSendCheck]
  split
  · exact readInv_enter (p := .preDrain) { h with }
  · exact readInv_enter (p := .preDrain) h

theorem readInv_sendByte {s : State} (n : Nat) (b : Byte) (hp : s.ph = .tx) (h : Untouched s) :
    ReadInv (s.sendByte n b) := by
  have hu : Untouched (s.sendByte n b) := by rw [sendByte_frame]; exact { h with }
  refine readInv_of_readOk ?_
  rw [sendByte_ph, hp]
  split <;> exact hu

theorem readInv_retryOrGiveUp {s : State} (h : Untouched s) : ReadInv s.retryOrGiveUp := by
  simp only [State.retryOrGiveUp]
  split
  · exact readInv_enter (p := .tx) { h with }
  · exact readInv_enter (p := .post) h

theorem readInv_afterSend {s : State} (h : Untouched s) : ReadInv s.afterSend := by
  simp only [State.afterSend]
  split
  · exact readInv_enter (p := .rfSync) h
  · exact readInv_enter h.answered

/-! The length byte, the body and the check. -/

/-- The length byte begins an empty body (R175). -/
theorem readInv_lengthByte {s : State} (l : Byte) (h : Untouched s) : ReadInv (s.lengthByte l) := by
  have hc : Collecting { s with rxLen := l, rxCnt := 0#8, acc := 0xFF#8 } := ⟨rfl, fun f hf _ => h.flags f hf⟩
  have htrn : s.flag .trn = false := h.flags .trn (by decide)
  simp only [State.lengthByte]
  split
  · rename_i hl
    exact readInv_enter ⟨hc, fun _ => hl.symm, fun ht => absurd (htrn.symm.trans ht) nofun⟩
  · exact readInv_enter ⟨hc, htrn⟩

theorem toNat_rxCnt_bodyByte {s : State} (c : Byte) (hlt : s.rxCnt.toNat < s.rxLen.toNat) :
    (s.bodyByte c).rxCnt.toNat = s.rxCnt.toNat + 1 := by
  have hlen := s.rxLen.isLt
  rw [bodyByte_frame, BitVec.toNat_add]
  simp only [BitVec.toNat_ofNat]
  omega

theorem bufByte_bodyByte (s : State) (c : Byte) (i : Nat) :
    (s.bodyByte c).bufByte (rxBufBase + i) = if i = s.rxCnt.toNat then c else s.bufByte (rxBufBase + i) := by
  simp only [← Nat.add_left_cancel_iff (n := rxBufBase) (m := i), ← bufByte_writeBuf]
  rfl

/-- A body byte is appended to the body (R28, R177). -/
theorem rxBody_bodyByte {s : State} (c : Byte) (hlt : s.rxCnt.toNat < s.rxLen.toNat) :
    (s.bodyByte c).rxBody = s.rxBody ++ [c] := by
  simp only [State.rxBody, toNat_rxCnt_bodyByte c hlt, List.range_succ, List.map_append, List.map_singleton,
    bufByte_bodyByte, if_true]
  congr 1
  refine List.map_congr_left fun i hi => ?_
  rw [if_neg (Nat.ne_of_lt (List.mem_range.mp hi))]

theorem readInv_bodyByte {s : State} (c : Byte) (h : Collecting s) (htrn : s.flag .trn = false)
    (hlt : s.rxCnt.toNat < s.rxLen.toNat) : ReadInv (s.bodyByte c) := by
  have hc : Collecting (s.bodyByte c) := by
    refine ⟨?_, h.flags⟩
    rw [rxBody_bodyByte c hlt, csum_concat, ← h.acc, bodyByte_frame]
  have hph : (s.bodyByte c).ph = if s.rxCnt.toNat + 1 = s.rxLen.toNat then .rfCheck else .rfBody := rfl
  refine readInv_of_readOk ?_
  rw [hph]
  split
  · rename_i hlast
    have hcomplete : (s.bodyByte c).rxCnt = s.rxLen := BitVec.eq_of_toNat_eq ((toNat_rxCnt_bodyByte c hlt).trans hlast)
    exact ⟨hc, fun _ => hcomplete, fun ht => absurd (htrn.symm.trans ht) nofun⟩
  · exact ⟨hc, htrn⟩

/-- A stall in the body leaves a truncated frame (R178). -/
theorem readInv_bodyStall {s : State} (h : Collecting s) (hlt : s.rxCnt.toNat < s.rxLen.toNat) :
    ReadInv s.bodyStall := by
  refine readInv_enter (p := .rfCheck) ⟨⟨h.acc, fun f hf hne => ?_⟩, fun ht => ?_, fun _ => hlt⟩
  · simp [h.flags f hf hne, hne.symm]
  · simp at ht

/-- The check makes the flags say what VERIFY says (R179). -/
theorem checked_checkFrame {s : State} (h : Collecting s) (he : Extent s) : Checked s.checkFrame where
  complete htrn := he.complete (by simpa [flag_checkFrame] using htrn)
  truncated htrn := he.truncated (by simpa [flag_checkFrame] using htrn)
  rxf := by simp [flag_checkFrame]
  acc := congrArg (· ^^^ s.rxLen) h.acc
  cse := by
    change s.checkFrame.flag .cse = !(verify s.rxLen s.rxBody).2
    have hcse := h.flags .cse (by decide) (by decide)
    simp [flag_checkFrame, hcse, h.acc, verify, bne]
  sht := by
    change s.checkFrame.flag .sht = decide (s.rxLen.toNat < 2)
    have hsht := h.flags .sht (by decide) (by decide)
    simp [flag_checkFrame, hsht]
  tmo := by simpa [flag_checkFrame] using h.flags .tmo (by decide) (by decide)
  lst := by simpa [flag_checkFrame] using h.flags .lst (by decide) (by decide)

theorem readInv_checkFrame {s : State} (h : Collecting s) (he : Extent s) : ReadInv s.checkFrame := by
  have hc := checked_checkFrame h he
  have hph : s.checkFrame.ph = if s.ackDue then .rfAck else .finish := rfl
  refine readInv_of_readOk ?_
  rw [hph]
  split
  · exact hc
  · exact hc.answered

/-- The end of the command leaves the result (R250). -/
theorem readInv_finishCommand {s : State} (h : Answered s) : ReadInv s.finishCommand := by
  refine readInv_enter (p := .idle) (Answered.congr (s := s) ⟨rfl, rfl, rfl, rfl, fun f hf => ?_⟩ h)
  have hb : .busy ≠ f := ne_of_mem_resultFlags (by decide) hf
  have hd : .done ≠ f := ne_of_mem_resultFlags (by decide) hf
  simp [hb, hd]

theorem readInv_engineEdge {s t : State} (hr : ReadInv s) (h : EngineEdge s t) : ReadInv t := by
  cases h with
  | rest | noByte => exact hr
  | preSendCheck h => exact readInv_preSendCheck (readOk_of_readInv hr h)
  | sendByte h F b => exact readInv_sendByte _ b h (readOk_of_readInv hr h)
  | retryOrGiveUp h => exact readInv_retryOrGiveUp (readOk_of_readInv hr h)
  | afterSend h => exact readInv_afterSend (readOk_of_readInv hr h)
  | preSendDrain h | sendProbe h | probeAnswered h | cancelAck h | cancelDrain1 h | cancelDrain2 h | otherDrain h =>
    have hu : Untouched s := readOk_of_readInv hr h
    exact readInv_of_untouched { hu with } (.inl rfl)
  | confirmed h | cancelled h | otherReply h =>
    have hu : Untouched s := readOk_of_readInv hr h
    exact readInv_of_untouched { untouched_setFlag (by decide) hu with } (.inl rfl)
  | startMarker h =>
    have hu : Untouched s := readOk_of_readInv hr h
    exact readInv_of_untouched { hu with } (.inr (.inr rfl))
  | desyncByte h =>
    have hu : Untouched s := readOk_of_readInv hr h
    exact readInv_of_untouched { hu with } (.inr (.inl rfl))
  | lengthByte h l q =>
    have hu : Untouched s := readOk_of_readInv hr h
    exact readInv_lengthByte l { hu with }
  | bodyByte h c q hq hlt =>
    obtain ⟨hc, htrn⟩ := readOk_of_readInv hr h
    exact readInv_bodyByte c { hc with } htrn hlt
  | checkFrame h =>
    obtain ⟨hc, he⟩ := readOk_of_readInv hr h
    exact readInv_checkFrame hc he
  | ackFrame h =>
    have hc : Checked s := readOk_of_readInv hr h
    exact readInv_enter (p := .finish) (Checked.answered { hc with })
  | finishCommand h => exact readInv_finishCommand (readOk_of_readInv hr h)

/-- A synchronisation or length read that stalls is no frame, and the flag says which (R173, R176). -/
theorem readInv_stall {s : State} {f : Flag} (hf : f = .tmo ∨ f = .lst) (h : Untouched s) :
    ReadInv ((s.setFlag f).enter .finish) := by
  refine readInv_enter ⟨fun hrxf => ?_, fun htmo => ?_⟩
  · obtain rfl | rfl := hf <;> simp [h.flags .rxf (by decide)] at hrxf
  · obtain rfl | rfl := hf
    · simp [h.flags .lst (by decide)]
    · simp [h.flags .tmo (by decide)] at htmo

theorem readInv_expireEdge {s t : State} (hi : Inv s) (hr : ReadInv s) (h : ExpireEdge s t) : ReadInv t := by
  cases h with
  | notEnabled => exact hr
  | noReply h =>
    have hu : Untouched s := readOk_of_readInv hr h
    exact readInv_of_untouched { untouched_setFlag (f := .nrs) (by decide) hu with } (.inl rfl)
  | nextProbe h | probesDone h | cancelGapOver h =>
    have hu : Untouched s := readOk_of_readInv hr h
    exact readInv_of_untouched { hu with } (.inl rfl)
  | syncStall h => exact readInv_stall (.inl rfl) (readOk_of_readInv hr h)
  | waitAgain => exact readInv_congr (s := s) ⟨rfl, rfl, rfl, rfl, fun _ _ => rfl⟩ rfl hr
  | lengthStall h =>
    have hu : Untouched s := readOk_of_readInv hr h
    exact readInv_stall (.inr rfl) { hu with }
  | bodyStall h =>
    obtain ⟨hc, -⟩ := readOk_of_readInv hr h
    exact readInv_bodyStall { hc with } (hi.bodyLeft h)

/-- Settles O51: each agent's operations keep both invariants. -/
theorem stepKeepsReadInv : Obligations.StepKeepsReadInv := by
  intro s t hi hr h
  refine (runMove_keeps (P := fun u => Inv u ∧ ReadInv u) ?engine ?expire ?tick ?deliver ?write ?read ?reset h
    ⟨inv_advance _ hi, readInv_congr (sameResult_advance _ hi) rfl hr⟩).2
  case engine => exact fun _ _ ⟨hi, hr⟩ he => ⟨inv_engineEdge hi he, readInv_engineEdge hr he⟩
  case expire => exact fun _ _ ⟨hi, hr⟩ he => ⟨inv_expireEdge hi he, readInv_expireEdge hi hr he⟩
  case tick => exact fun _ ⟨hi, hr⟩ => ⟨inv_tickDown hi, readInv_tickDown hr⟩
  case deliver => exact fun _ b ⟨hi, hr⟩ => ⟨inv_deliver b hi, readInv_deliver b hr⟩
  case write => exact fun _ _ _ _ ⟨hi, hr⟩ hw => ⟨inv_writeEdge hi hw, readInv_writeEdge hr hw⟩
  case read => exact fun _ idx ⟨hi, hr⟩ => ⟨inv_hostRead idx hi, readInv_hostRead idx hr⟩
  case reset => exact fun u _ => ⟨inv_resetBlock u, readInv_resetBlock u⟩

end Sys2Proof.Proofs
end

section
/-!
PROOFS. The phases of `sendCommand` (43_send.md): what the engine, TIME and the row of a byte taken in HS_WAIT do in
each, one equation per phase; and the order of the phases, `nextPhases`, from which every claim about phases that do or
do not come back follows by looking at that one table.
-/

namespace Sys2Proof.Proofs

open Sys2Proof.Machine Sys2Proof.Safety Sys2Proof.Laws

/-! The handshake (R205 to R208). -/

theorem exec_ack {s : State} (hp : s.ph = .hsWait) : exec .ack s = .next s.confirmed := by
  simp only [exec, execAck, hp, if_true]

theorem exec_nak {s : State} (hp : s.ph = .hsWait) : exec .nak s = .next s.otherReply := by
  simp only [exec, execNak, hp, if_true]

theorem exec_can {s : State} (hp : s.ph = .hsWait) :
    exec .can s = .next (if s.canEn then s.cancelled else s.otherReply) := by
  simp only [exec, execCan, hp, if_true]

theorem exec_hsOther {s : State} (b : Byte) (hp : s.ph = .hsWait) : exec (.hsOther b) s = .next s.otherReply := by
  simp only [exec, execHsOther, hp, if_true]

/-- A byte taken in HS_WAIT goes through the decoder to one of the three arms (R97, R206 to R208). -/
theorem exec_decodeByte_hsWait {s : State} (b : Byte) (hp : s.ph = .hsWait) :
    exec (decodeByte (.handshake s.canEn) b) s = .next (if b = 0x06#8 then s.confirmed
      else if b = 0x18#8 ∧ s.canEn = true then s.cancelled else s.otherReply) := by
  rw [← consume_hsWait b hp]
  simp only [consume, hp]

theorem expireStep_hsWait {s : State} (hp : s.ph = .hsWait) (hq : s.rxq = []) : expireStep s = .next s.noReply := by
  simp [expireStep, State.expireEnabled, hp, rxAvail_eq_false_iff.mpr hq]

/-- Settles O9: CFG.CAN_EN decides, in the row CAN and in the decoder alike. -/
theorem cancelByteTakesItsBranch : Obligations.CancelByteTakesItsBranch := by
  refine ⟨rfl, fun s hp => ⟨fun hc => ?cancel, fun hc => ?other⟩⟩
  case cancel => exact (exec_can hp).trans (congrArg _ (if_pos hc))
  case other =>
    have hcan : exec .can s = .next s.otherReply := (exec_can hp).trans (congrArg _ (if_neg (Bool.eq_false_iff.mp hc)))
    refine ⟨hcan, ?_⟩
    rw [hcan, hc]
    exact exec_hsOther 0x18#8 hp

/-- Settles O10: the row NAK, the row HS.OTHER, and what the decoder leaves to them. -/
theorem otherReplyIsUnexpected : Obligations.OtherReplyIsUnexpected := fun _ hp =>
  ⟨exec_nak hp, fun b => exec_hsOther b hp, fun b hack hcan =>
    (exec_decodeByte_hsWait b hp).trans (congrArg _ ((if_neg hack).trans (if_neg hcan)))⟩

/-- Settles O11: TIME's step in HS_WAIT, which does not look at ATT. -/
theorem silenceStartsProbeFlood : Obligations.SilenceStartsProbeFlood := fun _ => expireStep_hsWait

/-! The engine's and TIME's steps in the other phases (R201, R202, R210 to R218). -/

theorem engineStep_preChk {s : State} (hp : s.ph = .preChk) : engineStep s = .next s.preSendCheck := by
  simp only [engineStep, hp]

theorem engineStep_preDrain {s : State} (hp : s.ph = .preDrain) : engineStep s = .next s.preSendDrain := by
  simp only [engineStep, hp]

theorem engineStep_probeTx {s : State} (hp : s.ph = .probeTx) : engineStep s = .next s.sendProbe := by
  simp only [engineStep, hp]

theorem engineStep_probeGap {s : State} (hp : s.ph = .probeGap) (hq : s.rxq ≠ []) :
    engineStep s = .next s.probeAnswered := by
  simp only [engineStep, hp, rxAvail_eq_true_iff.mpr hq, if_true]

theorem engineStep_canAck {s : State} (hp : s.ph = .canAck) : engineStep s = .next s.cancelAck := by
  simp only [engineStep, hp]

theorem engineStep_canDrain1 {s : State} (hp : s.ph = .canDrain1) : engineStep s = .next s.cancelDrain1 := by
  simp only [engineStep, hp]

theorem engineStep_canDrain2 {s : State} (hp : s.ph = .canDrain2) : engineStep s = .next s.cancelDrain2 := by
  simp only [engineStep, hp]

theorem engineStep_othDrain {s : State} (hp : s.ph = .othDrain) : engineStep s = .next s.otherDrain := by
  simp only [engineStep, hp]

theorem engineStep_nextAttempt {s : State} (hp : s.ph = .nextAttempt) : engineStep s = .next s.retryOrGiveUp := by
  simp only [engineStep, hp]

theorem engineStep_post {s : State} (hp : s.ph = .post) : engineStep s = .next s.afterSend := by
  simp only [engineStep, hp]

theorem expireStep_probeGap {s : State} (hp : s.ph = .probeGap) (hq : s.rxq = []) : expireStep s = probeExpiry s := by
  simp [expireStep, State.expireEnabled, hp, rxAvail_eq_false_iff.mpr hq]

theorem probeExpiry_of_lt {s : State} (h : s.prb.toNat < 32) : probeExpiry s = .next (s.enter .probeTx) := if_pos h

theorem probeExpiry_of_eq {s : State} (h : s.prb.toNat = 32) : probeExpiry s = .next (s.enter .nextAttempt) :=
  (if_neg h.not_lt).trans (if_pos h)

theorem expireStep_canGap {s : State} (hp : s.ph = .canGap) : expireStep s = .next s.cancelGapOver := by
  simp [expireStep, State.expireEnabled, hp]

/-- Settles O14: the engine's steps in PROBE_TX and PROBE_GAP, and the two expiries of PROBE_GAP. -/
theorem probeFloodSteps : Obligations.ProbeFloodSteps := fun _ =>
  ⟨fun hp => ⟨_, engineStep_probeTx hp, rfl⟩, engineStep_probeGap,
    fun hp hq h32 => (expireStep_probeGap hp hq).trans (probeExpiry_of_eq h32),
    fun hp hq hlt => (expireStep_probeGap hp hq).trans (probeExpiry_of_lt hlt)⟩

/-- Settles O15: the two branches phase by phase; in CAN_GAP the engine has no step, and a delivery keeps the phase. -/
theorem cancelAndOtherBranches : Obligations.CancelAndOtherBranches := fun s =>
  ⟨engineStep_canAck, fun hp => ⟨_, engineStep_canDrain1 hp, rfl⟩, expireStep_canGap,
    fun hp => ⟨engineStep_of_not_enabled (enabled_canGap hp).1, fun b => ⟨_, rfl, (goesOn_deliver s b).ph.trans hp⟩⟩,
    engineStep_canDrain2, engineStep_othDrain⟩

/-- Settles O16: the comparison of ATT with CFG.RETRY decides between the two arms. -/
theorem retryIsBounded : Obligations.RetryIsBounded := fun _ hp =>
  ⟨fun hlt => (engineStep_nextAttempt hp).trans (congrArg _ (if_pos hlt)),
    fun hge => (engineStep_nextAttempt hp).trans (congrArg _ (if_neg hge))⟩

/-- Settles O17: bit 0 of OP alone decides where POST leads. -/
theorem postReadsIfRequested : Obligations.PostReadsIfRequested := by
  refine fun s hp => ⟨fun hop => ⟨_, engineStep_post hp, ?sendr⟩, fun hop => (engineStep_post hp).trans ?send⟩
  case sendr => rw [State.afterSend, hop]; rfl
  case send => rw [State.afterSend, hop]; rfl

/-! The order of the phases (R24). -/

/-- The phases a step of the engine or of TIME can lead to from a phase it leaves (R24). -/
def nextPhases : Phase → List Phase
  | .idle => []
  | .preChk => [.preDrain]
  | .preDrain => [.tx]
  | .tx => [.hsWait]
  | .hsWait => [.probeTx, .post, .canAck, .othDrain]
  | .probeTx => [.probeGap]
  | .probeGap => [.probeTx, .nextAttempt]
  | .canAck => [.canDrain1]
  | .canDrain1 => [.canGap]
  | .canGap => [.canDrain2]
  | .canDrain2 => [.nextAttempt]
  | .othDrain => [.nextAttempt]
  | .nextAttempt => [.tx, .post]
  | .post => [.rfSync, .finish]
  | .rfSync => [.rfLen, .finish]
  | .rfLen => [.rfBody, .rfCheck, .finish]
  | .rfBody => [.rfCheck]
  | .rfCheck => [.rfAck, .finish]
  | .rfAck => [.finish]
  | .finish => [.idle]

/-- The phase stands, or goes on to one of those that can follow it. -/
def phaseStep (p q : Phase) : Bool := q == p || (nextPhases p).contains q

theorem phaseStep_refl (p : Phase) : phaseStep p p = true := by simp [phaseStep]

theorem phaseStep_ite {p a b : Phase} {c : Prop} [Decidable c] (ha : phaseStep p a = true) (hb : phaseStep p b = true) :
    phaseStep p (if c then a else b) = true := by split <;> assumption

theorem phaseStep_engineEdge {s t : State} (h : EngineEdge s t) : phaseStep s.ph t.ph = true := by
  cases h with
  | rest | noByte => exact phaseStep_refl _
  | sendByte h => rw [sendByte_ph, h]; exact phaseStep_ite rfl rfl
  | retryOrGiveUp h => rw [h]; simp only [State.retryOrGiveUp]; split <;> rfl
  | afterSend h | lengthByte h | bodyByte h | checkFrame h => rw [h]; exact phaseStep_ite rfl rfl
  | _ h => rw [h]; rfl

theorem phaseStep_expireEdge {s t : State} (h : ExpireEdge s t) : phaseStep s.ph t.ph = true := by
  cases h with
  | notEnabled | waitAgain => exact phaseStep_refl _
  | _ h => rw [h]; rfl

/-- A set of phases that `nextPhases` does not lead out of. -/
def ClosedPhases (P : Phase → Bool) : Prop := ∀ p, P p = true → (nextPhases p).all P = true

theorem closedPhases_phaseStep {P : Phase → Bool} (hP : ClosedPhases P) {p q : Phase} (hp : P p = true)
    (h : phaseStep p q = true) : P q = true := by
  simp only [phaseStep, Bool.or_eq_true, beq_iff_eq, List.contains_iff_mem] at h
  obtain rfl | hq := h
  · exact hp
  · exact List.all_eq_true.mp (hP p hp) q hq

/-- While a command runs, every move goes along `nextPhases` or, by reset, to IDLE; so it stays in a closed set of
phases that IDLE belongs to. -/
theorem closedPhases_runMove {P : Phase → Bool} (hP : ClosedPhases P) (hidle : P .idle = true) {m : Move} {s t : State}
    (h : runMove m s = .next t) (hb : s.flag .busy = true) (hs : P s.ph = true) : P t.ph = true := by
  have engine : ∀ u v, P u.ph = true → EngineEdge u v → P v.ph = true := fun _ _ hu he =>
    closedPhases_phaseStep hP hu (phaseStep_engineEdge he)
  cases runMove_cases h with
  | engine he | clkEngine he => exact engine _ _ hs he
  | frame hr => exact hr.keeps engine hs
  | expire he | clkExpire _ he => exact closedPhases_phaseStep hP hs (phaseStep_expireEdge he)
  | tick | clkIdle | hostRead => exact hs
  | deliver b => rw [(goesOn_deliver s b).ph]; exact hs
  | hostWrite _ _ hw => rw [writeEdge_busy hw hb]; exact hs
  | rst => exact hidle

theorem closedPhases_afterHandshake : ClosedPhases fun p => afterHandshake p || p == .idle := by
  intro p; cases p <;> decide

theorem closedPhases_ne_preChk : ClosedPhases fun p => p != .preChk := by
  intro p; cases p <;> decide

theorem closedPhases_ne_preSend : ClosedPhases fun p => p != .preChk && p != .preDrain := by
  intro p; cases p <;> decide

/-- Settles O8: the step of the row ACK, and that no phase after the handshake leads back to one before it. -/
theorem ackConfirmsDelivery : Obligations.AckConfirmsDelivery := by
  refine ⟨fun _ => rfl, fun _ => exec_ack, fun m s t hp hb h => ?stays⟩
  case stays => simpa using closedPhases_runMove closedPhases_afterHandshake rfl h hb (by simp [hp])

/-- The acknowledgment before the drain goes out exactly when something is queued (R201). -/
theorem preSendCheck_eq (s : State) :
    s.preSendCheck = { s with txLog := if s.rxq = [] then s.txLog else s.txLog ++ [0x06#8], ph := .preDrain } := by
  by_cases hq : s.rxq = []
  · rw [State.preSendCheck, if_neg (by simp [rxAvail_eq_false_iff.mpr hq]), if_pos hq]; rfl
  · rw [State.preSendCheck, if_pos (rxAvail_eq_true_iff.mpr hq), if_neg hq]; rfl

/-- Settles O12: no phase leads back to the two of the pre-send clear, and each has its one step. -/
theorem preSendClear : Obligations.PreSendClear := by
  refine ⟨fun m s t h hb => ⟨fun ht => ?check, fun ht => ?drain⟩,
    fun s => ⟨fun hp => ?acknowledges, engineStep_preDrain⟩⟩
  case check =>
    by_contra hs
    simpa [ht] using closedPhases_runMove closedPhases_ne_preChk rfl h hb (by simpa using hs)
  case drain =>
    by_contra hs
    simpa [ht] using closedPhases_runMove closedPhases_ne_preSend rfl h hb (by simpa using hs)
  case acknowledges => exact (engineStep_preChk hp).trans (congrArg _ (preSendCheck_eq s))

end Sys2Proof.Proofs
end

section
/-!
PROOFS. The transmission of a frame (R203): one byte of it, and all its bytes from TXI on.
-/

namespace Sys2Proof.Proofs

open Sys2Proof.Machine Sys2Proof.Safety Sys2Proof.Laws

/-- Settles O13: the frame has TX_LEN + 4 bytes, so the byte at TXI is its last exactly at TX_LEN + 3. -/
theorem transmitsOneByte : Obligations.TransmitsOneByte := by
  intro s F b hp hF hb
  obtain ⟨hlen, -⟩ := length_txFrame hF
  obtain ⟨hlt, -⟩ := List.getElem?_eq_some_iff.mp hb
  have hmore : s.txi.toNat + 1 < F.length ↔ s.txi.toNat < s.txLen.toNat + 3 := by omega
  have hlast : s.txi.toNat = s.txLen.toNat + 3 ↔ ¬ s.txi.toNat < s.txLen.toNat + 3 := by omega
  refine ⟨hlen, s.sendByte F.length b, engineStep_tx hp hF hb, ?_⟩
  conv_lhs => rw [sendByte_frame]
  simp only [hmore, hlast, hp, ite_not]
  rfl

/-- What sending the bytes of a frame from TXI on leaves (R203; log 9). -/
theorem transmitFrom_rest {F : List Byte} {s : State} (hF : F.length ≤ 511) (hp : s.ph = .tx)
    (hlt : s.txi.toNat < F.length) :
    ∃ t, transmitFrom F (F.length - s.txi.toNat) s = t ∧
      t = { s with
        att := if s.txi = 0#9 then s.att + 1#8 else s.att
        txLog := s.txLog ++ F.drop s.txi.toNat
        txi := BitVec.ofNat 9 (F.length - 1)
        ph := .hsWait
        acc := t.acc
        tmr := t.tmr } := by
  obtain ⟨n, hn⟩ := Nat.exists_eq_add_of_lt hlt
  rw [show F.length - s.txi.toNat = n + 1 by omega]
  exact transmitFrom_spec F hF n s hp (by omega)

/-- The command's own frame is short enough for TXI to count its bytes (R30, R132). -/
theorem length_txFrame_le {s : State} {F : List Byte} (hF : s.txFrame = some F) : F.length ≤ 511 := by
  obtain ⟨hlen, hle⟩ := length_txFrame hF
  omega

/-- Settles O25: a well-formed FRAME.REQ has at most 257 bytes, so TXI can count them. -/
theorem frameReqTransmitsToItsEnd : Obligations.FrameReqTransmitsToItsEnd := by
  intro s len rest hwf hp hlt
  have hlen : (encode (.frameReq len rest)).length = max 3 (len.toNat + 2) := EncodedLength.frameReq len rest hwf
  have hle := len.isLt
  obtain ⟨t, ht, he⟩ := transmitFrom_rest (F := encode (.frameReq len rest)) (by rw [hlen]; omega) hp hlt
  refine ⟨t, ?exec, ?state⟩
  case exec => simp only [exec, execFrameReq, hp, transmitFrame, hlt, if_true, ht]
  case state =>
    conv_lhs => rw [he]
    rfl

end Sys2Proof.Proofs
end

section
/-!
PROOFS. Delivery is confirmed by the acknowledgment byte alone (R206): no step of any agent but the engine's on that
byte in HS_WAIT raises TXC.
-/

namespace Sys2Proof.Proofs

open Sys2Proof.Machine Sys2Proof.Safety Sys2Proof.Laws

/-- Raising one flag leaves every other. -/
theorem flag_of_raises {s t : State} {f g : Flag} (h : t.status = s.status ||| f.mask) (hne : f ≠ g) :
    t.flag g = s.flag g := by
  rw [State.flag_congr (t := s.setFlag f) h, State.flag_setFlag, decide_eq_false hne, Bool.or_false]

theorem txc_checkFrame (s : State) : s.checkFrame.flag .txc = s.flag .txc := by simp [flag_checkFrame]

/-- The engine raises TXC in one place: at the acknowledgment byte in HS_WAIT (R206). -/
theorem txc_engineEdge {s t : State} (h : EngineEdge s t) :
    t.flag .txc = s.flag .txc ∨ s.ph = .hsWait ∧ s.rxq = 0x06#8 :: t.rxq := by
  cases h with
  | confirmed h q hq => exact .inr ⟨h, hq⟩
  | cancelled => exact .inl (flag_of_raises (f := .cans) rfl (by decide))
  | otherReply => exact .inl (flag_of_raises (f := .oth) rfl (by decide))
  | checkFrame => exact .inl (txc_checkFrame s)
  | finishCommand => left; simp [State.finishCommand]
  | sendByte => left; rw [sendByte_frame]; rfl
  | preSendCheck => simp only [State.preSendCheck]; split <;> exact .inl rfl
  | retryOrGiveUp => simp only [State.retryOrGiveUp]; split <;> exact .inl rfl
  | _ => exact .inl rfl

theorem txc_expireEdge {s t : State} (h : ExpireEdge s t) : t.flag .txc = s.flag .txc := by
  cases h with
  | noReply => exact flag_of_raises (f := .nrs) rfl (by decide)
  | syncStall => exact flag_of_raises (f := .tmo) rfl (by decide)
  | lengthStall => exact flag_of_raises (f := .lst) rfl (by decide)
  | bodyStall => exact flag_of_raises (f := .trn) rfl (by decide)
  | notEnabled | nextProbe | probesDone | cancelGapOver | waitAgain => rfl

theorem txc_finishRead (s : State) : s.finishRead.flag .txc = s.flag .txc := by
  simp only [State.finishRead]
  split_ifs
  · exact txc_checkFrame s
  · exact txc_checkFrame s
  · rfl

/-- A whole frame, sent or read, is no handshake (log 9). -/
theorem txc_frameEdge {s t : State} (h : FrameEdge s t) : t.flag .txc = s.flag .txc := by
  cases h with
  | nothing => rfl
  | sent h F hF hlt =>
    obtain ⟨u, hu, he⟩ := transmitFrom_rest (length_txFrame_le hF) h hlt
    rw [hu, he]
    rfl
  | read h len dir rest tail hq hl =>
    obtain ⟨u, hu, he, -⟩ := takeBytes_frame { s with rxq := s.rxq.drop (len.toNat + 2) } len dir rest hl h
    rw [State.readWhole, hu, txc_finishRead, he]
    rfl

/-- Accepting a command clears TXC, and no other host write touches it (R245). -/
theorem txc_writeEdge {idx : RegIndex} {data : Word16} {s t : State} (h : WriteEdge idx data s t) :
    t.flag .txc = s.flag .txc ∨ t.flag .txc = false := by
  cases h with
  | overrun => exact .inl (flag_of_raises (f := .ovr) rfl (by decide))
  | illegal | tooLong => exact .inl (flag_of_raises (f := .ill) rfl (by decide))
  | recv | send | sendr => exact .inr (getLsbD_acceptedStatus s.status .txc)
  | nop => exact .inl rfl
  | store =>
    left
    generalize hu : s.store idx data = u
    cases hu ▸ store_cases idx data s <;> rfl

theorem txc_deliver (s : State) (b : Byte) : (s.deliver b).flag .txc = s.flag .txc := by
  simp only [State.deliver]
  split
  · rfl
  · exact flag_of_raises (f := .fov) rfl (by decide)

/-- Settles O56: whichever agent moves, if TXC rises it is the engine on the acknowledgment byte. -/
theorem onlyAckConfirms : Obligations.OnlyAckConfirms := by
  intro m s t h hclear hset
  have hrises : t.flag .txc ≠ s.flag .txc := by rw [hclear, hset]; nofun
  have byAck : EngineEdge s t → s.ph = .hsWait ∧ s.rxq.head? = some 0x06#8 ∧ t.rxq = s.rxq.tail := fun he => by
    obtain ⟨hp, hq⟩ := (txc_engineEdge he).resolve_left hrises
    exact ⟨hp, by rw [hq]; rfl, by rw [hq]; rfl⟩
  cases runMove_cases h with
  | engine he => obtain ⟨hp, hhead, htail⟩ := byAck he; exact ⟨hp, hhead, htail, .inl rfl⟩
  | clkEngine he => obtain ⟨hp, hhead, htail⟩ := byAck he; exact ⟨hp, hhead, htail, .inr rfl⟩
  | frame => exact absurd (txc_frameEdge (frameStep_cases h)) hrises
  | expire he | clkExpire _ he => exact absurd (txc_expireEdge he) hrises
  | deliver b => exact absurd (txc_deliver s b) hrises
  | hostWrite _ _ hw => exact absurd ((txc_writeEdge hw).resolve_right (by simp [hset])) hrises
  | tick | clkIdle | hostRead => exact absurd rfl hrises
  | rst => exact absurd (show State.reset.flag .txc = true from hset) (by decide)

end Sys2Proof.Proofs
end

section
/-!
PROOFS. The bound of R220 (g) on the steps of the send phases. In TX it is the bytes from TXI on over the attempts left
once this one is counted, whether it has begun or not (`sendFuel_tx`); in every other phase it is a number of steps over
what the attempts not yet begun may cost.
-/

namespace Sys2Proof.Proofs

open Sys2Proof.Machine Sys2Proof.Safety Sys2Proof.Laws

/-- The bound with the phase at hand. -/
theorem sendFuel_of_ph {s : State} {p : Phase} (h : s.ph = p) : sendFuel s = sendFuel { s with ph := p } := by
  rw [← h]

/-- An attempt that begins takes its cost from what the attempts not yet begun may cost (R217). -/
theorem attemptsLeft_begin {s t : State} (hlt : s.att.toNat < s.retry) (hatt : t.att = s.att + 1#8)
    (hlen : t.txLen = s.txLen) (hcfg : t.cfg = s.cfg) : attemptsLeft s = attemptsLeft t + attemptCost s := by
  have hmod : s.retry < 16 := Nat.mod_lt _ (by decide)
  have hcount : t.att.toNat = s.att.toNat + 1 := by simp only [hatt, BitVec.toNat_add, BitVec.toNat_ofNat]; omega
  have hcost : attemptCost t = attemptCost s := by rw [attemptCost, hlen, attemptCost]
  have hretry : t.retry = s.retry := by rw [State.retry, hcfg, State.retry]
  have hleft : s.retry - s.att.toNat = s.retry - (s.att.toNat + 1) + 1 := by omega
  rw [attemptsLeft, attemptsLeft, hcount, hcost, hretry, hleft, Nat.succ_mul]

theorem attemptsLeft_congr {s t : State} (hatt : t.att = s.att) (hlen : t.txLen = s.txLen) (hcfg : t.cfg = s.cfg) :
    attemptsLeft t = attemptsLeft s := by
  simp only [attemptsLeft, attemptCost, State.retry, hatt, hlen, hcfg]

/-- In TX: the bytes from TXI on, and the steps that follow them in this attempt (R220 g). `t` is the state after a byte
of the frame, whose attempt is counted. -/
theorem sendFuel_tx {s t : State} (hi : Inv s) (hp : s.ph = .tx)
    (hatt : t.att = if s.txi = 0#9 then s.att + 1#8 else s.att) (hlen : t.txLen = s.txLen) (hcfg : t.cfg = s.cfg) :
    sendFuel s = attemptsLeft t + (s.txLen.toNat + 4 - s.txi.toNat) + 67 := by
  simp only [sendFuel, hp]
  by_cases h0 : s.txi = 0#9
  · rw [if_pos h0] at hatt
    rw [if_pos h0, attemptsLeft_begin (hi.txBegin hp h0) hatt hlen hcfg, attemptCost, h0, BitVec.toNat_ofNat]
    omega
  · rw [if_neg h0] at hatt
    rw [if_neg h0, attemptsLeft_congr hatt hlen hcfg]

/-- A byte sent is one byte less to send; the last one leaves the steps from the handshake wait on (R203). -/
theorem sendFuel_sendByte_lt {s : State} {F : List Byte} (b : Byte) (hi : Inv s) (hp : s.ph = .tx)
    (hF : s.txFrame = some F) : sendFuel (s.sendByte F.length b) < sendFuel s := by
  obtain ⟨hlen, hle⟩ := length_txFrame hF
  have hrange := hi.txRange hp
  obtain ⟨t, ht⟩ : ∃ t, s.sendByte F.length b = t := ⟨_, rfl⟩
  have hframe := sendByte_frame s F.length b
  rw [ht] at hframe ⊢
  rw [sendFuel_tx (t := t) hi hp (by rw [hframe]) (by rw [hframe]) (by rw [hframe])]
  by_cases hlt : s.txi.toNat + 1 < F.length
  · have hph : t.ph = .tx := by rw [hframe]; simp only [hlt, if_true, hp]
    have htxi : t.txi.toNat = s.txi.toNat + 1 := by
      rw [hframe]; simp only [hlt, if_true, BitVec.toNat_add, BitVec.toNat_ofNat]; omega
    have hne : t.txi ≠ 0#9 := fun h0 => by simp [h0] at htxi
    have htxLen : t.txLen = s.txLen := by rw [hframe]
    simp only [sendFuel, hph, hne, if_false, htxi, htxLen]
    omega
  · have hph : t.ph = .hsWait := by rw [hframe]; simp only [hlt, if_false]
    simp only [sendFuel, hph]
    omega

theorem sendFuel_preSendCheck (s : State) : sendFuel s.preSendCheck = attemptsLeft s + 2 := by
  simp only [State.preSendCheck]; split <;> rfl

theorem sendFuel_sendProbe {s : State} (hlt : s.prb.toNat < 32) :
    sendFuel s.sendProbe = attemptsLeft s + 2 * (32 - s.prb.toNat) + 1 := by
  have hprb : (s.prb + 1#6).toNat = s.prb.toNat + 1 := by
    simp only [BitVec.toNat_add, BitVec.toNat_ofNat]; omega
  change attemptsLeft s + 2 * (32 - (s.prb + 1#6).toNat) + 3 = _
  omega

theorem sendFuel_retryOrGiveUp (s : State) : sendFuel s.retryOrGiveUp ≤ attemptsLeft s + 1 := by
  simp only [State.retryOrGiveUp]
  split
  · exact le_rfl
  · exact Nat.le_add_left 1 _

theorem sendFuel_afterSend (s : State) : sendFuel s.afterSend = 0 := by
  simp only [State.afterSend]; split <;> rfl

/-- Each step of the engine that is enabled lowers the bound: by one, or by the steps an answered wait spares. -/
theorem sendFuel_lt_engineEdge {s t : State} (hi : Inv s) (hp : sendPhase s.ph = true) (he : s.engineEnabled = true)
    (h : EngineEdge s t) : sendFuel t < sendFuel s := by
  cases h with
  | rest h => obtain h | h := h <;> simp [State.engineEnabled, h] at he
  | noByte h hq => obtain h | h | h | h | h := h <;> simp [State.engineEnabled, h, State.rxAvail, hq] at he
  | preSendCheck h => rw [sendFuel_of_ph h, sendFuel_preSendCheck]; exact Nat.lt_succ_self (attemptsLeft s + 2)
  | sendByte h F b hF => exact sendFuel_sendByte_lt b hi h hF
  | sendProbe h =>
    rw [sendFuel_of_ph h, sendFuel_sendProbe (hi.probeLeft h)]
    exact Nat.lt_succ_self _
  | retryOrGiveUp h => rw [sendFuel_of_ph h]; exact Nat.lt_succ_of_le (sendFuel_retryOrGiveUp s)
  | afterSend h => rw [sendFuel_of_ph h, sendFuel_afterSend]; exact Nat.one_pos
  | probeAnswered h =>
    rw [sendFuel_of_ph h]
    change attemptsLeft s + 2 < attemptsLeft s + 2 * (32 - s.prb.toNat) + 3
    omega
  | confirmed h =>
    rw [sendFuel_of_ph h]
    change 1 < attemptsLeft s + 67
    omega
  | preSendDrain h | cancelled h | otherReply h | cancelAck h | cancelDrain1 h | cancelDrain2 h | otherDrain h =>
    rw [sendFuel_of_ph h]
    exact Nat.add_lt_add_left (by decide) (attemptsLeft s)
  | startMarker h | desyncByte h | lengthByte h | bodyByte h | checkFrame h | ackFrame h | finishCommand h =>
    simp [h, sendPhase] at hp

/-- Each expiry that is enabled lowers the bound; the flood ends with its last probe's (R211). -/
theorem sendFuel_lt_expireEdge {s t : State} (hp : sendPhase s.ph = true) (he : s.expireEnabled = true)
    (h : ExpireEdge s t) : sendFuel t < sendFuel s := by
  cases h with
  | notEnabled h => simp [h] at he
  | noReply h =>
    rw [sendFuel_of_ph h]
    change attemptsLeft s + 64 + 2 < attemptsLeft s + 67
    omega
  | cancelGapOver h =>
    rw [sendFuel_of_ph h]
    exact Nat.add_lt_add_left (by decide) (attemptsLeft s)
  | nextProbe h =>
    rw [sendFuel_of_ph h]
    exact Nat.lt_succ_self _
  | probesDone h =>
    rw [sendFuel_of_ph h]
    change attemptsLeft s + 2 < attemptsLeft s + 2 * (32 - s.prb.toNat) + 3
    omega
  | syncStall h | lengthStall h | bodyStall h => simp [h, sendPhase] at hp
  | waitAgain h => obtain h | h := h <;> simp [h, sendPhase] at hp

theorem sendFuel_le_engineStep {s t : State} (hi : Inv s) (hp : sendPhase s.ph = true) (h : engineStep s = .next t) :
    sendFuel t ≤ sendFuel s := by
  cases he : s.engineEnabled with
  | true => exact (sendFuel_lt_engineEdge hi hp he (engineStep_cases h)).le
  | false =>
    cases (engineStep_of_not_enabled he).symm.trans h
    exact le_rfl

theorem sendFuel_le_expireStep {s t : State} (hp : sendPhase s.ph = true) (h : expireStep s = .next t) :
    sendFuel t ≤ sendFuel s := by
  cases he : s.expireEnabled with
  | true => exact (sendFuel_lt_expireEdge hp he (expireStep_cases h)).le
  | false =>
    cases (expireStep_of_not_enabled he).symm.trans h
    exact le_rfl

/-- A clock edge is a step of the engine, of TIME, or none (R151). -/
theorem sendFuel_le_clockEdge {s t : State} (hi : Inv s) (hp : sendPhase s.ph = true) (h : clockEdge s = .next t) :
    sendFuel t ≤ sendFuel s := by
  obtain he | ⟨-, he⟩ | he := clockEdge_eq s
  · exact sendFuel_le_engineStep hi hp (he.symm.trans h)
  · exact sendFuel_le_expireStep hp (he.symm.trans h)
  · cases he.symm.trans h; exact le_rfl

/-- Over a whole frame the bound falls by the bytes that go out (R203; log 9). -/
theorem sendFuel_le_frameEdge {s t : State} (hi : Inv s) (hp : sendPhase s.ph = true) (h : FrameEdge s t) :
    sendFuel t ≤ sendFuel s := by
  cases h with
  | nothing => exact le_rfl
  | sent h F hF hlt =>
    obtain ⟨t, ht, he⟩ := transmitFrom_rest (length_txFrame_le hF) h hlt
    have hph : t.ph = .hsWait := by rw [he]
    rw [ht, sendFuel_tx (t := t) hi h (by rw [he]) (by rw [he]) (by rw [he])]
    simp only [sendFuel, hph]
    omega
  | read h => simp [h, sendPhase] at hp

theorem sendFuel_deliver (s : State) (b : Byte) : sendFuel (s.deliver b) = sendFuel s := by
  simp only [State.deliver]
  split <;> rfl

theorem sendFuel_le_runMove {m : Move} {s t : State} (hi : Inv s) (hp : sendPhase s.ph = true)
    (h : runMove m s = .next t) (hrst : m ≠ .rst) : sendFuel t ≤ sendFuel s := by
  cases m with
  | engine => exact sendFuel_le_engineStep hi hp h
  | frame => exact sendFuel_le_frameEdge hi hp (frameStep_cases h)
  | expire => exact sendFuel_le_expireStep hp h
  | clk => exact sendFuel_le_clockEdge hi hp h
  | tick | hostRead => cases h; exact le_rfl
  | deliver b => cases h; exact (sendFuel_deliver s b).le
  | hostWrite idx data =>
    rw [writeEdge_busy (hostWrite_cases h) (sending_of_inv hi hp).busy]
    exact le_rfl
  | rst => exact absurd rfl hrst

/-- With no attempt made, all of CFG.RETRY are left (R217, R245). -/
theorem sendFuel_preChk {s : State} (hi : Inv s) (hp : s.ph = .preChk) :
    sendFuel s = 3 + s.retry * attemptCost s := by
  have hatt : s.att = 0#8 := hi.preAttempt (.inl hp)
  simp only [sendFuel, hp, attemptsLeft, hatt]
  exact Nat.add_comm _ _

/-- Settles O59: the enabled steps lower the bound, and no move but reset raises it. -/
theorem sendPhasesAreBounded : Obligations.SendPhasesAreBounded := by
  refine ⟨fun m s t hi hp h => ⟨?lowers, sendFuel_le_runMove hi hp h⟩, fun s hi hp => sendFuel_preChk hi hp⟩
  rintro (⟨rfl, he⟩ | ⟨rfl, he⟩)
  · exact sendFuel_lt_engineEdge hi hp he (engineStep_cases h)
  · exact sendFuel_lt_expireEdge hp he (expireStep_cases h)

end Sys2Proof.Proofs
end

section
/-!
PROOFS. The flags of STATUS over a move of any agent (R245, R267): a set flag stays set until reset or the next accepted
command, apart from BUSY, which falls at FINISH and rises only with an accepted command.
-/

namespace Sys2Proof.Proofs

open Sys2Proof.Machine Sys2Proof.Laws

/-- Every set flag but BUSY stays set, and BUSY is not raised. -/
structure FlagsStay (s t : State) : Prop where
  set : ∀ f, f ≠ .busy → s.flag f = true → t.flag f = true
  idle : s.flag .busy = false → t.flag .busy = false

theorem flagsStay_of_status {s t : State} (h : t.status = s.status) : FlagsStay s t where
  set f _ hs := (State.flag_congr h f).trans hs
  idle hb := (State.flag_congr h .busy).trans hb

theorem FlagsStay.trans {s t u : State} (h : FlagsStay s t) (h' : FlagsStay t u) : FlagsStay s u where
  set f hf hs := h'.set f hf (h.set f hf hs)
  idle hb := h'.idle (h.idle hb)

theorem flagsStay_of_raises {s t : State} {f : Flag} (hf : f ≠ .busy) (h : t.status = s.status ||| f.mask) :
    FlagsStay s t where
  set g _ hs := by rw [State.flag_congr (t := s.setFlag f) h, State.flag_setFlag, hs, Bool.true_or]
  idle hb := (flag_of_raises h hf).trans hb

theorem flagsStay_checkFrame (s : State) : FlagsStay s s.checkFrame where
  set f _ hs := by simp [flag_checkFrame, hs]
  idle hb := by simp [flag_checkFrame, hb]

/-- FINISH lowers BUSY alone (R250). -/
theorem flagsStay_finishCommand (s : State) : FlagsStay s s.finishCommand where
  set f hf hs := by simp [State.finishCommand, hs, hf.symm]
  idle _ := by simp [State.finishCommand]

theorem flagsStay_engineEdge {s t : State} (h : EngineEdge s t) : FlagsStay s t := by
  cases h with
  | confirmed => exact flagsStay_of_raises (f := .txc) (by decide) rfl
  | cancelled => exact flagsStay_of_raises (f := .cans) (by decide) rfl
  | otherReply => exact flagsStay_of_raises (f := .oth) (by decide) rfl
  | checkFrame => exact flagsStay_checkFrame s
  | finishCommand => exact flagsStay_finishCommand s
  | sendByte => rw [sendByte_frame]; exact flagsStay_of_status rfl
  | preSendCheck => simp only [State.preSendCheck]; split <;> exact flagsStay_of_status rfl
  | retryOrGiveUp => simp only [State.retryOrGiveUp]; split <;> exact flagsStay_of_status rfl
  | _ => exact flagsStay_of_status rfl

theorem flagsStay_engineRun {s t : State} (h : EngineRun s t) : FlagsStay s t :=
  h.keeps (P := FlagsStay s) (fun _ _ hu he => hu.trans (flagsStay_engineEdge he)) (flagsStay_of_status rfl)

theorem flagsStay_expireEdge {s t : State} (h : ExpireEdge s t) : FlagsStay s t := by
  cases h with
  | noReply => exact flagsStay_of_raises (f := .nrs) (by decide) rfl
  | syncStall => exact flagsStay_of_raises (f := .tmo) (by decide) rfl
  | lengthStall => exact flagsStay_of_raises (f := .lst) (by decide) rfl
  | bodyStall => exact flagsStay_of_raises (f := .trn) (by decide) rfl
  | notEnabled | nextProbe | probesDone | cancelGapOver | waitAgain => exact flagsStay_of_status rfl

theorem flagsStay_deliver (s : State) (b : Byte) : FlagsStay s (s.deliver b) := by
  simp only [State.deliver]
  split
  · exact flagsStay_of_status rfl
  · exact flagsStay_of_raises (f := .fov) (by decide) rfl

/-- No register the host stores is STATUS (R249). -/
theorem status_store (s : State) (idx : RegIndex) (data : Word16) : (s.store idx data).status = s.status := by
  generalize hu : s.store idx data = u
  cases hu ▸ store_cases idx data s <;> rfl

/-- The move is a write of the code of RECV, SEND or SENDR to CMD, and the command is accepted (R245). -/
structure Accepts (m : Move) (s t : State) : Prop where
  write : ∃ data : Word16, m = .hostWrite 0x000#10 data ∧ 1 ≤ data.toNat % 256 ∧ data.toNat % 256 ≤ 3
  idle : s.flag .busy = false
  busy : t.flag .busy = true

theorem accepts_accept {s : State} {data : Word16} {c : BitVec 2} (hb : s.flag .busy = false)
    (hd : 1 ≤ data.toNat % 256 ∧ data.toNat % 256 ≤ 3) : Accepts (.hostWrite 0x000#10 data) s (s.accept c) where
  write := ⟨data, rfl, hd⟩
  idle := hb
  busy := flag_busy_accept s c

/-- A host write starts a command or leaves every flag that is set (R245 to R249). -/
theorem flagsStay_or_accepts_writeEdge {idx : RegIndex} {data : Word16} {s t : State} (h : WriteEdge idx data s t) :
    FlagsStay s t ∨ Accepts (.hostWrite idx data) s t := by
  cases h with
  | overrun => exact .inl (flagsStay_of_raises (f := .ovr) (by decide) rfl)
  | illegal | tooLong => exact .inl (flagsStay_of_raises (f := .ill) (by decide) rfl)
  | nop => exact .inl (flagsStay_of_status rfl)
  | store => exact .inl (flagsStay_of_status (status_store s idx data))
  | recv hb hi hd | send hb hi hd | sendr hb hi hd => subst hi; exact .inr (accepts_accept hb (by omega))

/-- Over any move but reset the set flags stay, unless a command is accepted (R245, R267). -/
theorem flagsStay_or_accepts_runMove {m : Move} {s t : State} (h : runMove m s = .next t) (hrst : m ≠ .rst) :
    FlagsStay s t ∨ Accepts m s t := by
  cases runMove_cases h with
  | engine he | clkEngine he => exact .inl (flagsStay_engineEdge he)
  | frame hr => exact .inl (flagsStay_engineRun hr)
  | expire he | clkExpire _ he => exact .inl (flagsStay_expireEdge he)
  | deliver b => exact .inl (flagsStay_deliver s b)
  | hostWrite _ _ hw => exact flagsStay_or_accepts_writeEdge hw
  | tick | clkIdle | hostRead => exact .inl (flagsStay_of_status rfl)
  | rst => exact absurd rfl hrst

/-- A set flag but BUSY stays set until reset or the next accepted command (R267). -/
theorem flag_stays_runMove {m : Move} {s t : State} {f : Flag} (h : runMove m s = .next t) (hf : f ≠ .busy)
    (hs : s.flag f = true) : t.flag f = true ∨ m = .rst ∨ (s.flag .busy = false ∧ t.flag .busy = true) := by
  by_cases hrst : m = .rst
  · exact .inr (.inl hrst)
  · obtain hstay | hacc := flagsStay_or_accepts_runMove h hrst
    · exact .inl (hstay.set f hf hs)
    · exact .inr (.inr ⟨hacc.idle, hacc.busy⟩)

/-- Only an accepted command raises BUSY (R245). -/
theorem accepts_of_busy_rises {m : Move} {s t : State} (h : runMove m s = .next t) (hb : s.flag .busy = false)
    (hb' : t.flag .busy = true) : Accepts m s t := by
  have hrst : m ≠ .rst := by
    rintro rfl
    cases h
    exact absurd (show State.reset.flag .busy = true from hb') (by decide)
  exact (flagsStay_or_accepts_runMove h hrst).resolve_left fun hstay =>
    absurd (hb'.symm.trans (hstay.idle hb)) nofun

end Sys2Proof.Proofs
end

section
/-!
PROOFS. The host commands (R240 to R248): what each row of the command context does while the engine is idle, that every
host write is ignored while it is busy, and what a command leaves when it ends (R250).
-/

namespace Sys2Proof.Proofs

open Sys2Proof.Machine Sys2Proof.Safety Sys2Proof.Laws

theorem exec_recv_idle {s : State} (hb : s.flag .busy = false) : exec .recv s = .next (s.accept 1#2) :=
  if_neg (Bool.eq_false_iff.mp hb)

theorem startSend_accept {s : State} (c : BitVec 2) (hb : s.flag .busy = false) (hl : s.txLen.toNat ≤ 253)
    (hw : s.payloadWritten = true) : startSend c s = .next (s.accept c) :=
  (if_neg (Bool.eq_false_iff.mp hb)).trans ((if_neg (Nat.not_lt.mpr hl)).trans (if_pos hw))

theorem startSend_tooLong {s : State} (c : BitVec 2) (hb : s.flag .busy = false) (hl : 253 < s.txLen.toNat) :
    startSend c s = .next (s.setFlag .ill) :=
  (if_neg (Bool.eq_false_iff.mp hb)).trans (if_pos hl)

/-- The state of the accept step; the phase it leads to starts its wait (R245). -/
theorem upToWait_accept (s : State) (c : BitVec 2) :
    UpToWait (s.accept c)
      { s with status := (s.status &&& 0x8000#16) ||| 0x0001#16, op := c, att := 0#8, rxLen := 0#8, rxCnt := 0#8,
               ph := if c.getLsbD 1 then .preChk else .rfSync } := rfl

/-- Settles O2: the three codes are accepted by one step, and only an accepted command raises BUSY. -/
theorem commandAccepted : Obligations.CommandAccepted := by
  refine ⟨fun s hb => ⟨⟨_, exec_recv_idle hb, upToWait_accept s 1#2⟩, fun hl hw => ⟨?send, ?sendr⟩⟩,
    fun m s t h hb hb' => (accepts_of_busy_rises h hb hb').write⟩
  case send => exact ⟨_, startSend_accept 2#2 hb hl hw, upToWait_accept s 2#2⟩
  case sendr => exact ⟨_, startSend_accept 3#2 hb hl hw, upToWait_accept s 3#2⟩

theorem decodeByte_command_illegal {c : Byte} (h : 4 ≤ c.toNat) : decodeByte .command c = .cmdIllegal c :=
  decodeByte_eq_iff.mpr ⟨decide_eq_true h, rfl, rfl⟩

/-- Settles O4: the decoder's last arm, whose row only raises ILL; and flags stay. -/
theorem illegalCommandRefused : Obligations.IllegalCommandRefused :=
  ⟨fun _ _ hc hb => ⟨decodeByte_command_illegal hc, if_neg (Bool.eq_false_iff.mp hb)⟩,
    fun _ _ _ h => flag_stays_runMove h (by decide)⟩

/-- Every row of the command context first meets the test of BUSY (R244, R248). -/
theorem exec_command_busy {s : State} (b : Byte) (hb : s.flag .busy = true) :
    exec (decodeByte .command b) s = .next s.overrun := by
  simp only [decodeByte]
  split_ifs <;> exact if_pos hb

theorem hostWrite_busy {s : State} (idx : RegIndex) (data : Word16) (hb : s.flag .busy = true) :
    hostWrite idx data s = .next s.overrun := by
  by_cases hi : idx = cmdIndex
  · exact (if_pos hi).trans (exec_command_busy _ hb)
  · exact (if_neg hi).trans (if_pos hb)

/-- Settles O5: the write leaves an overrun, and flags stay. -/
theorem writeWhileBusyIgnored : Obligations.WriteWhileBusyIgnored :=
  ⟨fun _ idx data => hostWrite_busy idx data, fun _ _ _ h => flag_stays_runMove h (by decide)⟩

/-- The results of a command stand: its registers, RX_BUF, and every flag but the two that may rise while idle
(R157, R246, R250). -/
structure ResultsStand (s t : State) : Prop where
  len : t.rxLen = s.rxLen
  cnt : t.rxCnt = s.rxCnt
  att : t.att = s.att
  acc : t.acc = s.acc
  flags : ∀ f, f ≠ .ill → f ≠ .fov → t.flag f = s.flag f
  rxBuf : ∀ a, 0x200 ≤ a → Memory.read t.mem a = Memory.read s.mem a

theorem resultsStand_refl (s : State) : ResultsStand s s := ⟨rfl, rfl, rfl, rfl, fun _ _ _ => rfl, fun _ _ => rfl⟩

theorem resultsStand_setFlag (s : State) {f : Flag} (hf : f = .ill ∨ f = .fov) : ResultsStand s (s.setFlag f) :=
  { resultsStand_refl s with
    flags := fun _ hill hfov => flag_of_raises (f := f) rfl (hf.elim (· ▸ hill.symm) (· ▸ hfov.symm)) }

theorem resultsStand_storeEdge {idx : RegIndex} {s t : State} (h : StoreEdge idx s t) : ResultsStand s t := by
  have same := resultsStand_refl s
  cases h with
  | txBuf i w hi =>
    refine { same with rxBuf := fun a ha => ?_ }
    have hne : a ≠ txBufBase + i := by simp only [txBufBase, txBufSize] at *; omega
    exact (Memory.read_write s.mem _ w a).trans (if_neg hne)
  | _ => exact { same with }

theorem resultsStand_deliver (s : State) (b : Byte) : ResultsStand s (s.deliver b) := by
  simp only [State.deliver]
  split
  · exact { resultsStand_refl s with }
  · exact resultsStand_setFlag s (.inr rfl)

theorem ph_accept_ne_idle (s : State) (c : BitVec 2) : (s.accept c).ph ≠ .idle := by
  simp only [State.accept, State.enter_ph]
  split <;> nofun

/-- Of the host's writes while idle only one that starts a command touches its results (R245, R249). -/
theorem resultsStand_writeEdge {idx : RegIndex} {data : Word16} {s t : State} (h : WriteEdge idx data s t)
    (hb : s.flag .busy = false) (hp : t.ph = .idle) : ResultsStand s t := by
  cases h with
  | overrun hbusy => exact absurd (hb.symm.trans hbusy) nofun
  | nop => exact resultsStand_refl s
  | illegal | tooLong => exact resultsStand_setFlag s (.inl rfl)
  | recv | send | sendr => exact absurd hp (ph_accept_ne_idle s _)
  | store => exact resultsStand_storeEdge (store_cases idx data s)

/-- In IDLE no step of the engine or of TIME is enabled (R158, R159). -/
theorem clockEdge_idle {s : State} (hp : s.ph = .idle) : clockEdge s = .next s :=
  clockEdge_of_none_enabled (enabled_idle hp).1 (enabled_idle hp).2

theorem frameStep_idle {s : State} (hp : s.ph = .idle) : frameStep s = .next s := by
  simp only [frameStep, fetchFrame, hp]

theorem resultsStand_runMove {m : Move} {s t : State} (hp : s.ph = .idle) (hb : s.flag .busy = false)
    (h : runMove m s = .next t) (hp' : t.ph = .idle) (hrst : m ≠ .rst) : ResultsStand s t := by
  have unchanged {u : State} (hu : runMove m s = .next u) (hsu : ResultsStand s u) : ResultsStand s t := by
    cases hu.symm.trans h; exact hsu
  cases m with
  | engine => exact unchanged (engineStep_of_not_enabled (enabled_idle hp).1) (resultsStand_refl s)
  | frame => exact unchanged (frameStep_idle hp) (resultsStand_refl s)
  | expire => exact unchanged (expireStep_of_not_enabled (enabled_idle hp).2) (resultsStand_refl s)
  | clk => exact unchanged (clockEdge_idle hp) (resultsStand_refl s)
  | tick | hostRead => exact unchanged rfl { resultsStand_refl s with }
  | deliver b => exact unchanged rfl (resultsStand_deliver s b)
  | hostWrite => exact resultsStand_writeEdge (hostWrite_cases h) hb hp'
  | rst => exact absurd rfl hrst

theorem engineStep_finish {s : State} (hp : s.ph = .finish) : engineStep s = .next s.finishCommand := by
  simp only [engineStep, hp]

theorem donePort_finishCommand (s : State) : s.finishCommand.donePort = true := by
  simp [State.donePort, State.finishCommand]

/-- Settles O7: the engine's step in FINISH; and between commands each agent leaves the results. -/
theorem finishEndsCommand : Obligations.FinishEndsCommand := by
  refine ⟨fun s hp => ⟨_, engineStep_finish hp, rfl, donePort_finishCommand s⟩, fun m s t hp hb h hp' hrst => ?stand⟩
  case stand =>
    obtain ⟨hlen, hcnt, hatt, hacc, hflags, hbuf⟩ := resultsStand_runMove hp hb h hp' hrst
    exact ⟨hlen, hcnt, hatt, hacc, hflags, hbuf⟩

/-- Settles O1: the row NOP in either case. -/
theorem nopDoesNothing : Obligations.NopDoesNothing :=
  ⟨rfl, fun _ => ⟨fun hb => if_neg (Bool.eq_false_iff.mp hb), fun hb => if_pos hb⟩⟩

/-- Settles O3: SEND and SENDR are refused alike, and RECV is accepted whatever TX_LEN is. -/
theorem longPayloadRefused : Obligations.LongPayloadRefused :=
  ⟨rfl, rfl, rfl, fun s hb hl =>
    ⟨startSend_tooLong 2#2 hb hl, startSend_tooLong 3#2 hb hl, _, exec_recv_idle hb, rfl, flag_busy_accept s 1#2⟩⟩

end Sys2Proof.Proofs
end

section
/-!
PROOFS. The host's register accesses (R21, R22, R249, R251): what a write while idle stores at each index, and what a
read of each index gives.
-/

namespace Sys2Proof.Proofs

open Sys2Proof.Machine Sys2Proof.Laws

theorem hostWrite_idle {s : State} {idx : RegIndex} (data : Word16) (hb : s.flag .busy = false)
    (hi : idx ≠ 0x000#10) : hostWrite idx data s = .next (s.store idx data) :=
  (if_neg hi).trans (if_neg (Bool.eq_false_iff.mp hb))

/-- CFG after a host write: bits 5:4 are those written, RETRY that of the old or of the new value (R22). -/
theorem cfgWritten_eq (old w : Byte) :
    cfgWritten old w = (w &&& 0x30#8) ||| ((if w.toNat % 16 = 0 then old else w) &&& 0x0F#8) := by
  have hzero : w &&& 0x0F#8 = 0x00#8 ↔ w.toNat % 16 = 0 := by
    rw [← BitVec.toNat_inj, BitVec.toNat_and]
    exact Eq.congr_left (Nat.and_two_pow_sub_one_eq_mod w.toNat 4)
  by_cases hw : w.toNat % 16 = 0
  · rw [cfgWritten, if_pos (hzero.mpr hw), if_pos hw]
  · rw [cfgWritten, if_neg (mt hzero.mp hw), if_neg hw]

theorem cfgWritten_retry (old w : Byte) :
    (cfgWritten old w).toNat % 16 = if w.toNat % 16 = 0 then old.toNat % 16 else w.toNat % 16 := by
  rw [cfgWritten_eq, (toNat_cfgFields _ _).2]
  split <;> rfl

/-- The index of a byte of a buffer (R21). -/
theorem toNat_bufIndex {n : Nat} (h : n < 1024) : (BitVec.ofNat 10 n).toNat = n := by
  rw [BitVec.toNat_ofNat, Nat.mod_eq_of_lt h]

theorem txBuf_range {i : Nat} (h : i < 253) : txBufBase ≤ 0x100 + i ∧ 0x100 + i < txBufBase + txBufSize :=
  ⟨Nat.le_add_right _ i, Nat.add_lt_add_left h 0x100⟩

theorem rxBuf_range {i : Nat} (h : i < 255) : rxBufBase ≤ 0x200 + i ∧ 0x200 + i < rxBufBase + rxBufSize :=
  ⟨Nat.le_add_right _ i, Nat.add_lt_add_left h 0x200⟩

/-- Past the nine writable registers, an index of TX_BUF (R21, R27). -/
theorem store_txBuf {s : State} {idx : RegIndex} (data : Word16)
    (h : txBufBase ≤ idx.toNat ∧ idx.toNat < txBufBase + txBufSize) :
    s.store idx data = s.writeBuf idx.toNat (data.setWidth 8) := by
  have hbase : 0x100 ≤ idx.toNat := h.1
  simp only [State.store]
  iterate 9 rw [if_neg (by omega)]
  rw [if_pos h]

/-- A read-only register or an unpopulated index (R21). -/
theorem store_unwritable {s : State} {idx : RegIndex} (data : Word16)
    (h : idx.toNat = 1 ∨ (10 ≤ idx.toNat ∧ idx.toNat < 0x100 ∧ idx.toNat ≠ 0x015) ∨ 0x1FD ≤ idx.toNat) :
    s.store idx data = s := by
  have hbuf : ¬(txBufBase ≤ idx.toNat ∧ idx.toNat < txBufBase + txBufSize) := by
    simp only [txBufBase, txBufSize]; omega
  simp only [State.store]
  iterate 9 rw [if_neg (by omega)]
  rw [if_neg hbuf]

/-- Settles O35: register by register. -/
theorem hostWritesStore : Obligations.HostWritesStore := by
  intro s data hb
  have write {idx : RegIndex} (hi : idx ≠ 0x000#10) : runMove (.hostWrite idx data) s = .next (s.store idx data) :=
    hostWrite_idle data hb hi
  refine ⟨⟨_, write (by decide), ?cfg⟩, write (by decide), write (by decide), write (by decide), write (by decide),
    write (by decide), write (by decide), write (by decide), write (by decide), fun i hi => ?txBuf, fun idx hidx => ?none⟩
  case cfg =>
    have hlow : (data.setWidth 8).toNat % 16 = data.toNat % 16 := by rw [BitVec.toNat_setWidth]; omega
    refine ⟨?_, ?_, ?_, ?_⟩
    · rw [cfgWritten_eq]; exact (toNat_cfgFields _ _).1
    · simp [cfgWritten_eq]
    · simp [cfgWritten_eq]
    · rw [cfgWritten_retry, hlow]
  case txBuf =>
    have hidx := toNat_bufIndex (n := 0x100 + i) (by omega)
    have hstore := store_txBuf (s := s) data (hidx.symm ▸ txBuf_range hi)
    refine ⟨_, write fun h0 => ?_, ?_, ?_⟩
    · rw [h0, BitVec.toNat_ofNat] at hidx; omega
    · rw [hstore]; rfl
    · rw [hstore, hidx]; exact Memory.read_write s.mem _ _
  case none =>
    have hi : idx ≠ 0x000#10 := by rintro rfl; simp at hidx
    rw [write hi, store_unwritable data hidx]

theorem toNat_widen (b : Byte) : (widen b).toNat = b.toNat := BitVec.toNat_setWidth_of_le (by decide)

theorem toNat_cfgRead (w : Byte) : (cfgRead w).toNat = w.toNat % 64 :=
  (BitVec.toNat_and w 0x3F#8).trans (Nat.and_two_pow_sub_one_eq_mod w.toNat 6)

theorem toNat_phaseCode (p : Phase) : (BitVec.ofNat 16 p.code).toNat = p.code := by cases p <;> rfl

theorem bufByte_of_read {s : State} {a : Nat} {b : Byte} (h : Memory.read s.mem a = some b) : s.bufByte a = b := by
  rw [State.bufByte, h]; rfl

/-- Past the eighteen registers that can be read, an index of TX_BUF (R21, R27). -/
theorem readReg_txBuf {s : State} {idx : RegIndex} (h : txBufBase ≤ idx.toNat ∧ idx.toNat < txBufBase + txBufSize) :
    s.readReg idx = widen (s.bufByte idx.toNat) := by
  have hbase : 0x100 ≤ idx.toNat := h.1
  simp only [State.readReg]
  iterate 18 rw [if_neg (by omega)]
  rw [if_pos h]

/-- A byte of RX_BUF below RX_CNT (R28). -/
theorem readReg_rxBuf {s : State} {idx : RegIndex} (h : rxBufBase ≤ idx.toNat ∧ idx.toNat < rxBufBase + rxBufSize)
    (hcnt : idx.toNat < rxBufBase + s.rxCnt.toNat) : s.readReg idx = widen (s.bufByte idx.toNat) := by
  have hbase : 0x200 ≤ idx.toNat := h.1
  have htx : ¬(txBufBase ≤ idx.toNat ∧ idx.toNat < txBufBase + txBufSize) := by
    simp only [txBufBase, txBufSize]; omega
  simp only [State.readReg]
  iterate 18 rw [if_neg (by omega)]
  rw [if_neg htx, if_pos h, if_pos hcnt]

theorem readReg_unpopulated {s : State} {idx : RegIndex}
    (h : idx.toNat = 0x00E ∨ idx.toNat = 0x00F ∨ (0x016 ≤ idx.toNat ∧ idx.toNat < 0x100) ∨
      (0x1FD ≤ idx.toNat ∧ idx.toNat < 0x200) ∨ 0x2FF ≤ idx.toNat) : s.readReg idx = 0#16 := by
  have htx : ¬(txBufBase ≤ idx.toNat ∧ idx.toNat < txBufBase + txBufSize) := by
    simp only [txBufBase, txBufSize]; omega
  have hrx : ¬(rxBufBase ≤ idx.toNat ∧ idx.toNat < rxBufBase + rxBufSize) := by
    simp only [rxBufBase, rxBufSize]; omega
  simp only [State.readReg]
  iterate 18 rw [if_neg (by omega)]
  rw [if_neg htx, if_neg hrx]

/-- Settles O36: register by register. -/
theorem hostReadsRegisters : Obligations.HostReadsRegisters := by
  refine fun s => ⟨fun _ => rfl, rfl, rfl, (toNat_widen _).trans (toNat_cfgRead s.cfg), rfl, rfl, rfl, rfl, rfl,
    toNat_widen s.brb, toNat_widen s.txLen, toNat_widen s.rxLen, toNat_widen s.rxCnt, toNat_widen s.att,
    toNat_phaseCode s.ph, toNat_widen s.diagDesync, toNat_widen s.diagRetry, toNat_widen s.diagCsum,
    toNat_widen s.diagCan, toNat_widen s.diagOther, rfl, fun i b hi hread => ?txBuf, fun i b hi hcnt hread => ?rxBuf,
    fun _ => readReg_unpopulated⟩
  case txBuf =>
    have hidx := toNat_bufIndex (n := 0x100 + i) (by omega)
    rw [readReg_txBuf (hidx.symm ▸ txBuf_range hi), hidx, bufByte_of_read hread, toNat_widen]
  case rxBuf =>
    have hidx := toNat_bufIndex (n := 0x200 + i) (by omega)
    have hbelow : (BitVec.ofNat 10 (0x200 + i)).toNat < rxBufBase + s.rxCnt.toNat := by
      rw [hidx]; exact Nat.add_lt_add_left hcnt 0x200
    rw [readReg_rxBuf (hidx.symm ▸ rxBuf_range hi) hbelow, hidx, bufByte_of_read hread, toNat_widen]

end Sys2Proof.Proofs
end

section
/-!
PROOFS. Errors (60_exceptions.md). The engine takes no exception: under the invariant each agent's step answers a next
state, but for the host's write of a SEND or SENDR over bytes never written (R27, R266). What goes wrong is told by flags,
which stay until the next command (R267), and of which only some can stand together (R268).
-/

namespace Sys2Proof.Proofs

open Sys2Proof.Machine Sys2Proof.Safety Sys2Proof.Laws

/-! Nothing traps, agent by agent (R266). -/

/-- In TX the index is inside the frame (R30, R138 d). -/
theorem txi_lt_length_txFrame {s : State} {F : List Byte} (hi : Inv s) (hp : s.ph = .tx) (hF : s.txFrame = some F) :
    s.txi.toNat < F.length := by
  have hlen := (length_txFrame hF).1
  have hrange := hi.txRange hp
  omega

/-- In the phases that take a byte, taking one goes on (R97, R174 to R177, R206 to R208). -/
theorem engineStep_next_of_byte {s : State} {b : Byte} {q : List Byte} (hi : Inv s) (hq : s.rxq = b :: q)
    (hp : s.ph = .hsWait ∨ s.ph = .rfSync ∨ s.ph = .rfLen ∨ s.ph = .rfBody) : ∃ t, engineStep s = .next t := by
  obtain hp | hp | hp | hp := hp
  · have hstep : engineStep s = consume b { s with rxq := q } := by simp only [engineStep, hp, consumeHead_cons hq]
    exact ⟨_, hstep.trans (consume_hsWait b hp)⟩
  · exact ⟨_, engineStep_takeByte hq (.inl hp)⟩
  · exact ⟨_, engineStep_takeByte hq (.inr (.inl hp))⟩
  · exact ⟨_, engineStep_takeByte hq (.inr (.inr ⟨hp, hi.bodyLeft hp⟩))⟩

theorem engineStep_next_of_inv {s : State} (hi : Inv s) : ∃ t, engineStep s = .next t := by
  by_cases htakes : s.ph = .hsWait ∨ s.ph = .rfSync ∨ s.ph = .rfLen ∨ s.ph = .rfBody
  · cases hq : s.rxq with
    | nil => obtain hp | hp | hp | hp := htakes <;> exact ⟨s, by simp only [engineStep, hp, consumeHead_nil hq]⟩
    | cons b q => exact engineStep_next_of_byte hi hq htakes
  cases hp : s.ph with
  | tx =>
    obtain ⟨F, hF⟩ := txFrame_of_inv hi hp
    exact ⟨_, engineStep_tx hp hF (List.getElem?_eq_getElem (txi_lt_length_txFrame hi hp hF))⟩
  | hsWait | rfSync | rfLen | rfBody => simp [hp] at htakes
  | _ => simp only [engineStep, hp]; exact ⟨_, rfl⟩

theorem frameStep_next_of_inv {s : State} (hi : Inv s) : ∃ t, frameStep s = .next t := by
  cases hp : s.ph with
  | tx =>
    obtain ⟨F, hF⟩ := txFrame_of_inv hi hp
    exact ⟨_, frameStep_tx hp hF (txi_lt_length_txFrame hi hp hF)⟩
  | rfSync =>
    cases hd : decode .wire s.rxq with
    | error e => exact ⟨s, by simp only [frameStep, fetchFrame, hp, hd]⟩
    | ok r =>
      obtain ⟨len, dir, rest, hq, -, -⟩ := decodeWire_ok hd
      obtain ⟨dir', rest', q, -, -, hmove⟩ := frameStep_rfSync hp hd (len := len) (by simp [hq])
      exact ⟨_, hmove⟩
  | _ => exact ⟨s, by simp only [frameStep, fetchFrame, hp]⟩

theorem expireStep_next_of_inv {s : State} (hi : Inv s) : ∃ t, expireStep s = .next t := by
  cases hx : s.expireEnabled with
  | false => exact ⟨s, expireStep_of_not_enabled hx⟩
  | true =>
    cases hp : s.ph with
    | probeGap =>
      have hexpire : expireStep s = probeExpiry s := by simp only [expireStep, hx, hp, if_true]
      obtain hlt | heq := hi.probeLe.lt_or_eq
      · exact ⟨_, hexpire.trans (probeExpiry_of_lt hlt)⟩
      · exact ⟨_, hexpire.trans (probeExpiry_of_eq heq)⟩
    | _ => simp only [expireStep, hx, hp, if_true]; exact ⟨_, rfl⟩

theorem clockEdge_next_of_inv {s : State} (hi : Inv s) : ∃ t, clockEdge s = .next t := by
  obtain hstep | ⟨-, hstep⟩ | hstep := clockEdge_eq s
  · exact hstep ▸ engineStep_next_of_inv hi
  · exact hstep ▸ expireStep_next_of_inv hi
  · exact ⟨s, hstep⟩

/-! The host's writes (R27, R244). -/

theorem startSend_next_or_unwritten {s : State} (c : BitVec 2) (hb : s.flag .busy = false) :
    (∃ t, startSend c s = .next t) ∨ (startSend c s = .refused .txBufUnwritten ∧ s.payloadWritten = false) := by
  by_cases hl : s.txLen.toNat ≤ 253
  · cases hw : s.payloadWritten with
    | true => exact .inl ⟨_, startSend_accept c hb hl hw⟩
    | false => exact .inr ⟨(startSend_refused_iff c hb hl).mpr hw, rfl⟩
  · exact .inl ⟨_, startSend_tooLong c hb (Nat.not_le.mp hl)⟩

/-- Of the rows of the command context only SEND and SENDR can be refused (R240 to R247). -/
theorem exec_command_next_or_unwritten {s : State} (b : Byte) (hb : s.flag .busy = false) :
    (∃ t, exec (decodeByte .command b) s = .next t) ∨
    (exec (decodeByte .command b) s = .refused .txBufUnwritten ∧ s.payloadWritten = false ∧
      (b = 0x02#8 ∨ b = 0x03#8)) := by
  simp only [decodeByte]
  split_ifs with _ _ hsend hsendr
  · exact .inl ⟨s, if_neg (Bool.eq_false_iff.mp hb)⟩
  · exact .inl ⟨_, exec_recv_idle hb⟩
  · exact (startSend_next_or_unwritten 2#2 hb).imp_right fun ⟨hr, hw⟩ => ⟨hr, hw, .inl hsend⟩
  · exact (startSend_next_or_unwritten 3#2 hb).imp_right fun ⟨hr, hw⟩ => ⟨hr, hw, .inr hsendr⟩
  · exact .inl ⟨_, if_neg (Bool.eq_false_iff.mp hb)⟩

/-- The move is a SEND or SENDR, refused over payload bytes never written (R27; log 7). -/
structure RefusedUnwritten (m : Move) (s : State) : Prop where
  refused : runMove m s = .refused .txBufUnwritten
  idle : s.flag .busy = false
  unwritten : s.payloadWritten = false
  write : ∃ data : Word16, m = .hostWrite 0x000#10 data ∧ 2 ≤ data.toNat % 256 ∧ data.toNat % 256 ≤ 3

theorem hostWrite_next_or_unwritten (s : State) (idx : RegIndex) (data : Word16) :
    (∃ t, hostWrite idx data s = .next t) ∨ RefusedUnwritten (.hostWrite idx data) s := by
  cases hb : s.flag .busy with
  | true => exact .inl ⟨_, hostWrite_busy idx data hb⟩
  | false =>
    by_cases hi : idx = 0x000#10
    · subst hi
      refine (exec_command_next_or_unwritten (data.setWidth 8) hb).imp_right fun ⟨hr, hw, hcode⟩ => ?_
      have hdata : data.toNat % 256 = 2 ∨ data.toNat % 256 = 3 :=
        hcode.imp (setWidth_eq_iff data 2 (by omega)).mp (setWidth_eq_iff data 3 (by omega)).mp
      exact ⟨hr, hb, hw, data, rfl, by omega⟩
    · exact .inl ⟨_, hostWrite_idle data hb hi⟩

/-- Under the invariant every move goes on, but for a send over an unwritten payload (R27, R266). -/
theorem runMove_next_or_unwritten {s : State} (m : Move) (hi : Inv s) :
    (∃ t, runMove m s = .next t) ∨ RefusedUnwritten m s := by
  cases m with
  | engine => exact .inl (engineStep_next_of_inv hi)
  | frame => exact .inl (frameStep_next_of_inv hi)
  | expire => exact .inl (expireStep_next_of_inv hi)
  | clk => exact .inl (clockEdge_next_of_inv hi)
  | hostWrite idx data => exact hostWrite_next_or_unwritten s idx data
  | tick | deliver | hostRead | rst => exact .inl ⟨_, rfl⟩

/-- Settles O49: the step is a move in a state that meets the invariant too. -/
theorem nothingTraps : Obligations.NothingTraps := fun s hi =>
  (runMove_next_or_unwritten s.nextMove (inv_advance s.nextMove hi)).imp_right
    fun ⟨hrefused, hidle, hunwritten, hwrite⟩ => ⟨hrefused, hidle, hunwritten, hwrite⟩

/-! The flags (R267, R268). -/

/-- Settles O54: over every move but reset the flags stay or a command is accepted. -/
theorem flagsAreSticky : Obligations.FlagsAreSticky := fun _ _ _ _ h hf hs => flag_stays_runMove h hf hs

/-- A good verdict says that the length byte is the checksum of the body (R134, R135). -/
theorem csum_of_verify {L : Byte} {body : List Byte} (h : (verify L body).2 = true) : csum body = L :=
  BitVec.xor_eq_zero_iff.mp (verify_snd_iff.mp h)

/-- Of the bodies a length byte below 2 can announce, the one byte 0xFE alone has that length as its checksum
(R130, R268). -/
theorem short_body_of_csum {L : Byte} {body : List Byte} (hshort : L.toNat < 2) (hlen : body.length ≤ L.toNat)
    (hsum : csum body = L) : L = 1#8 ∧ body = [0xFE#8] := by
  match body with
  | [] => subst hsum; exact absurd hshort (by decide)
  | [b] =>
    obtain rfl : L = 1#8 := BitVec.eq_of_toNat_eq (Nat.le_antisymm (Nat.le_of_lt_succ hshort) hlen)
    have hb : b = 0xFF#8 ^^^ 1#8 := by rw [← hsum, csum_eq, ← BitVec.xor_assoc]; simp
    exact ⟨rfl, congrArg (fun b => [b]) hb⟩
  | _ :: _ :: _ => simp only [List.length_cons] at hlen; omega

/-- A short frame without CSE is the one byte 0xFE under the length byte 1 (R268). -/
theorem short_frame_of_not_cse {s : State} (hi : Inv s) (hc : Checked s) (hsht : s.flag .sht = true)
    (hcse : s.flag .cse = false) : s.rxLen = 1#8 ∧ s.rxBody = [0xFE#8] := by
  have hshort : s.rxLen.toNat < 2 := of_decide_eq_true (hc.sht.symm.trans hsht)
  have hgood : (verify s.rxLen s.rxBody).2 = true := by simpa [hcse] using hc.cse
  exact short_body_of_csum hshort ((length_rxBody s).trans_le hi.cntLe) (csum_of_verify hgood)

/-- Settles O52: a short frame without CSE has its one byte, so it is neither truncated nor of length 0. -/
theorem receiveFlagCombinations : Obligations.ReceiveFlagCombinations := by
  refine fun s hi hr => ⟨fun hrxf => ?frame, fun ⟨htmo, hlst⟩ => absurd ((hr.oneReason htmo).symm.trans hlst) nofun⟩
  have hc := checked_of_readInv hr hrxf
  have hshort := short_frame_of_not_cse hi hc
  refine ⟨fun htrn hsht => ?truncated, fun hsht hlen => ?empty, hshort, hc.tmo, hc.lst⟩
  case truncated =>
    by_contra hcse
    obtain ⟨hlen, hbody⟩ := hshort hsht (Bool.eq_false_iff.mpr hcse)
    have hcnt : s.rxCnt.toNat = 1 := by rw [← length_rxBody, hbody]; rfl
    have hlt := hc.truncated htrn
    rw [hcnt, hlen] at hlt
    exact absurd hlt (by decide)
  case empty =>
    by_contra hcse
    exact absurd (hlen.symm.trans (hshort hsht (Bool.eq_false_iff.mpr hcse)).1) (by decide)

end Sys2Proof.Proofs
end

section
/-!
PROOFS. The bound of R310 on the steps `readFrame` may take once it has its start marker. While a byte is awaited it is
one whole budget BRB for each byte that may still be due, less the expiries of the wait in progress (R152); so a byte
taken pays for all of its wait, and what follows the last byte takes three steps at most.
-/

namespace Sys2Proof.Proofs

open Sys2Proof.Machine Sys2Proof.Safety Sys2Proof.Laws

/-- `readFrame` has its start marker and the command has not ended (R310). -/
def AfterMarker (s : State) : Prop :=
  s.ph = .rfLen ∨ s.ph = .rfBody ∨ s.ph = .rfCheck ∨ s.ph = .rfAck ∨ s.ph = .finish

/-- The bytes that may still be waited for: the length byte and the at most 255 of the body, or the body bytes that are
missing (R175, R177). -/
def bytesDue (s : State) : Nat := if s.ph = .rfLen then 256 else s.rxLen.toNat - s.rxCnt.toNat

theorem bytesDue_rfLen {s : State} (hp : s.ph = .rfLen) : bytesDue s = 256 := if_pos hp

theorem bytesDue_rfBody {s : State} (hp : s.ph = .rfBody) : bytesDue s = s.rxLen.toNat - s.rxCnt.toNat :=
  if_neg (by simp [hp])

theorem bytesDue_pos {s : State} (hi : Inv s) (hp : s.ph = .rfLen ∨ s.ph = .rfBody) : 0 < bytesDue s := by
  obtain hp | hp := hp
  · rw [bytesDue_rfLen hp]; decide
  · rw [bytesDue_rfBody hp]; exact Nat.sub_pos_of_lt (hi.bodyLeft hp)

/-- The bound with the phase at hand. -/
theorem readFuel_of_ph {s : State} {p : Phase} (h : s.ph = p) : readFuel s = readFuel { s with ph := p } := by
  rw [← h]

/-- While a byte is awaited, the bound and the expiries so far make up a budget for each byte due (R152). -/
theorem readFuel_add_brc {s : State} (hi : Inv s) (hp : s.ph = .rfLen ∨ s.ph = .rfBody) :
    readFuel s + s.brc.toNat = 3 + bytesDue s * s.brb.toNat := by
  have hfuel : readFuel s = 3 + bytesDue s * s.brb.toNat - s.brc.toNat := by
    obtain hp | hp := hp
    · rw [bytesDue_rfLen hp]; simp only [readFuel, hp]
    · rw [bytesDue_rfBody hp]; simp only [readFuel, hp]
  have hbudget := hi.budgetLeft hp
  have hdue : s.brb.toNat ≤ bytesDue s * s.brb.toNat := Nat.le_mul_of_pos_left _ (bytesDue_pos hi hp)
  omega

/-- Where fewer bytes are due, less than the bound of the wait is left: BRC is below BRB, so the wait has not used up the
budget of its own byte (R152). -/
theorem lt_readFuel_of_lt_bytesDue {s : State} {k n : Nat} (hi : Inv s) (hp : s.ph = .rfLen ∨ s.ph = .rfBody)
    (hn : n < bytesDue s) (hk : k ≤ 3 + n * s.brb.toNat) : k < readFuel s := by
  have hfuel := readFuel_add_brc hi hp
  have hbudget := hi.budgetLeft hp
  have hdue : (n + 1) * s.brb.toNat ≤ bytesDue s * s.brb.toNat := Nat.mul_le_mul_right _ hn
  rw [Nat.succ_mul] at hdue
  omega

/-- The length byte announces L bytes, each with its budget; none leads to the check (R175). -/
theorem readFuel_lengthByte_le (s : State) (l : Byte) : readFuel (s.lengthByte l) ≤ 3 + l.toNat * s.brb.toNat := by
  simp only [State.lengthByte]
  split
  · exact Nat.le_add_right 3 _
  · exact Nat.sub_le _ _

/-- A body byte leaves one byte fewer due, and the last one leads to the check (R177). -/
theorem readFuel_bodyByte_le {s : State} (c : Byte) (hlt : s.rxCnt.toNat < s.rxLen.toNat) :
    readFuel (s.bodyByte c) ≤ 3 + (s.rxLen.toNat - (s.rxCnt.toNat + 1)) * s.brb.toNat := by
  rw [← toNat_rxCnt_bodyByte c hlt]
  simp only [State.bodyByte]
  split
  · exact Nat.le_add_right 3 _
  · exact Nat.sub_le _ _

theorem readFuel_checkFrame_le (s : State) : readFuel s.checkFrame ≤ 2 := by
  simp only [State.checkFrame]
  split
  · exact le_rfl
  · exact Nat.le_succ 1

/-- The engine's step lowers the bound, unless there is none: no byte is queued that it waits for (R159). -/
theorem readFuel_engineEdge {s t : State} (hi : Inv s) (hp : AfterMarker s) (h : EngineEdge s t) :
    readFuel t < readFuel s ∨ (t = s ∧ s.engineEnabled = false) := by
  cases h with
  | rest h => exact .inr ⟨rfl, by obtain h | h := h <;> simp [State.engineEnabled, h]⟩
  | noByte h hq =>
    exact .inr ⟨rfl, by obtain h | h | h | h | h := h <;> simp [State.engineEnabled, h, State.rxAvail, hq]⟩
  | lengthByte h l q =>
    have hdue : l.toNat < bytesDue s := by rw [bytesDue_rfLen h]; exact l.isLt
    exact .inl (lt_readFuel_of_lt_bytesDue hi (.inl h) hdue (readFuel_lengthByte_le { s with rxq := q } l))
  | bodyByte h c q _ hlt =>
    have hdue : s.rxLen.toNat - (s.rxCnt.toNat + 1) < bytesDue s := by rw [bytesDue_rfBody h]; omega
    exact .inl (lt_readFuel_of_lt_bytesDue hi (.inr h) hdue (readFuel_bodyByte_le (s := { s with rxq := q }) c hlt))
  | checkFrame h => rw [readFuel_of_ph h]; exact .inl (Nat.lt_succ_of_le (readFuel_checkFrame_le s))
  | ackFrame h | finishCommand h => rw [readFuel_of_ph h]; exact .inl (Nat.lt_succ_self _)
  | preSendCheck h | preSendDrain h | sendByte h | confirmed h | cancelled h | otherReply h | sendProbe h
  | probeAnswered h | cancelAck h | cancelDrain1 h | cancelDrain2 h | otherDrain h | retryOrGiveUp h | afterSend h
  | startMarker h | desyncByte h =>
    simp [AfterMarker, h] at hp

/-- An expiry that leaves the wait going uses up one step of its budget (R152). -/
theorem readFuel_waitAgain {s : State} (hi : Inv s) (hp : s.ph = .rfLen ∨ s.ph = .rfBody) (hb : s.brc + 1#8 ≠ s.brb) :
    readFuel { s with brc := s.brc + 1#8, tmr := s.tByte } < readFuel s := by
  have hbefore := readFuel_add_brc hi hp
  have hafter : readFuel { s with brc := s.brc + 1#8, tmr := s.tByte } + (s.brc + 1#8).toNat =
      3 + bytesDue s * s.brb.toNat := readFuel_add_brc (inv_waitAgain hi hp hb) hp
  have hcount : (s.brc + 1#8).toNat = s.brc.toNat + 1 := by
    have hbudget := hi.budgetLeft hp
    have hbrb := s.brb.isLt
    simp only [BitVec.toNat_add, BitVec.toNat_ofNat]
    omega
  omega

/-- An expiry lowers the bound, unless TIME has no step; a stall leaves no byte due (R176, R178). -/
theorem readFuel_expireEdge {s t : State} (hi : Inv s) (hp : AfterMarker s) (h : ExpireEdge s t) :
    readFuel t < readFuel s ∨ (t = s ∧ s.expireEnabled = false) := by
  have stalled {k : Nat} (hw : s.ph = .rfLen ∨ s.ph = .rfBody) (hk : k ≤ 3) : k < readFuel s :=
    lt_readFuel_of_lt_bytesDue hi hw (bytesDue_pos hi hw) (Nat.le_add_right_of_le hk)
  cases h with
  | notEnabled h => exact .inr ⟨rfl, h⟩
  | waitAgain h _ hb => exact .inl (readFuel_waitAgain hi h hb)
  | lengthStall h => exact .inl (stalled (k := 1) (.inl h) (by decide))
  | bodyStall h => exact .inl (stalled (k := 3) (.inr h) le_rfl)
  | noReply h | nextProbe h | probesDone h | cancelGapOver h | syncStall h => simp [AfterMarker, h] at hp

theorem readFuel_deliver (s : State) (b : Byte) : readFuel (s.deliver b) = readFuel s := by
  simp only [State.deliver]
  split <;> rfl

theorem eq_of_frameEdge_afterMarker {s t : State} (hp : AfterMarker s) (h : FrameEdge s t) : t = s := by
  cases h with
  | nothing => rfl
  | sent h | read h => simp [AfterMarker, h] at hp

theorem busy_of_afterMarker {s : State} (hi : Inv s) (hp : AfterMarker s) : s.flag .busy = true :=
  busy_of_inv hi fun h => by simp [AfterMarker, h] at hp

/-- No agent's step but reset raises the bound: the engine's and TIME's lower it or are none, and no other touches what
it is made of (R310). -/
theorem readFuel_le_runMove {m : Move} {s t : State} (hi : Inv s) (hp : AfterMarker s) (h : runMove m s = .next t)
    (hrst : m ≠ .rst) : readFuel t ≤ readFuel s := by
  have lowers {t : State} {e : Bool} (hf : readFuel t < readFuel s ∨ (t = s ∧ e = false)) : readFuel t ≤ readFuel s :=
    hf.elim Nat.le_of_lt fun ⟨hts, _⟩ => le_of_eq (congrArg readFuel hts)
  cases runMove_cases h with
  | engine he | clkEngine he => exact lowers (readFuel_engineEdge hi hp he)
  | expire he | clkExpire _ he => exact lowers (readFuel_expireEdge hi hp he)
  | frame => rw [eq_of_frameEdge_afterMarker hp (frameStep_cases h)]
  | deliver b => exact (readFuel_deliver s b).le
  | hostWrite _ _ hw => rw [writeEdge_busy hw (busy_of_afterMarker hi hp)]; exact le_rfl
  | tick | clkIdle | hostRead => exact le_rfl
  | rst => exact absurd rfl hrst

/-- Settles O60: the enabled steps lower the bound, and no move but reset raises it. -/
theorem readAfterMarkerIsBounded : Obligations.ReadAfterMarkerIsBounded := by
  refine fun m s t hi hp h => ⟨?lowers, readFuel_le_runMove hi hp h⟩
  rintro (⟨rfl, he⟩ | ⟨rfl, he⟩)
  · exact (readFuel_engineEdge hi hp (engineStep_cases h)).resolve_right fun ⟨_, hn⟩ => absurd (he.symm.trans hn) nofun
  · exact (readFuel_expireEdge hi hp (expireStep_cases h)).resolve_right fun ⟨_, hn⟩ => absurd (he.symm.trans hn) nofun

end Sys2Proof.Proofs
end

section
/-!
PROOFS. The rows of the wire outside the phase that takes them (30_encoding.md, section 2; log 14). The meaning of each
row looks at the phase before anything else, so one lemma per row says that it is refused; where it is taken, the lemmas
`exec_…` of its phase say what it does.
-/

namespace Sys2Proof.Proofs

open Sys2Proof.Machine

/-! The rows `readFrame` takes in RF_SYNC (R170, R174); FRAME.REQ is also transmitted, in TX (R203). -/

theorem exec_sof_refused {s : State} (hp : s.ph ≠ .rfSync) : exec .sof s = .refused (.outOfContext "SOF") :=
  if_neg hp

theorem exec_syncSkip_refused {s : State} (hp : s.ph ≠ .rfSync) (b : Byte) :
    exec (.syncSkip b) s = .refused (.outOfContext "SYNC.SKIP") :=
  if_neg hp

theorem exec_frameRes_refused {s : State} (hp : s.ph ≠ .rfSync) (len : Byte) (rest : List Byte) :
    exec (.frameRes len rest) s = .refused (.outOfContext "FRAME.RES") :=
  if_neg hp

theorem exec_frameReq_refused {s : State} (hp : s.ph ≠ .rfSync) (htx : s.ph ≠ .tx) (len : Byte) (rest : List Byte) :
    exec (.frameReq len rest) s = .refused (.outOfContext "FRAME.REQ") :=
  (if_neg htx).trans (if_neg hp)

/-! The rows of the handshake, taken in HS_WAIT (R206 to R208). -/

theorem exec_ack_refused {s : State} (hp : s.ph ≠ .hsWait) : exec .ack s = .refused (.outOfContext "ACK") :=
  if_neg hp

theorem exec_nak_refused {s : State} (hp : s.ph ≠ .hsWait) : exec .nak s = .refused (.outOfContext "NAK") :=
  if_neg hp

/-- Whatever CFG.CAN_EN is, which is read only in HS_WAIT (R207). -/
theorem exec_can_refused {s : State} (hp : s.ph ≠ .hsWait) : exec .can s = .refused (.outOfContext "CAN") :=
  if_neg hp

theorem exec_hsOther_refused {s : State} (hp : s.ph ≠ .hsWait) (b : Byte) :
    exec (.hsOther b) s = .refused (.outOfContext "HS.OTHER") :=
  if_neg hp

/-- Settles O30: row by row; only FRAME.REQ has a second phase to be outside of. -/
theorem wireRowsNeedTheirPhase : Obligations.WireRowsNeedTheirPhase := by
  refine fun s => ⟨fun hp => ?receive, fun hp => ?handshake⟩
  case receive =>
    exact ⟨exec_sof_refused hp, exec_syncSkip_refused hp, exec_frameRes_refused hp, exec_frameReq_refused hp⟩
  case handshake =>
    exact ⟨exec_ack_refused hp, exec_nak_refused hp, exec_can_refused hp, exec_hsOther_refused hp⟩

end Sys2Proof.Proofs
end
